-- ==== Sys2Proof/Word.lean ====
section
/-! DEFINITION. The words and bytes of the core (00_scope R8, R9) and the plainest arithmetic on them. -/

namespace Sys2Proof

/-- WORD: a 32-bit unsigned word (00_scope R6). -/
abbrev Word := BitVec 32

/-- A byte of MEM (20_memory R61). -/
abbrev Byte := BitVec 8

/-- `rotl(x, n)`, rotate left (00_scope R9). -/
abbrev rotl (x : Word) (n : Nat) : Word := x.rotateLeft n

/-- A file of sixteen words: `W`, `X` or `KS` (10_state R20, R22, R23). -/
abbrev RegFile := Vector Word 16

/-- Every register of a file at the same value. -/
def RegFile.fill (v : Word) : RegFile := Vector.replicate 16 v

end Sys2Proof
end

