-- ==== Sys2Proof/Config.lean ====
section
/-! DEFINITION. What one core instance fixes (00_scope R6, 10_state R48) and the free value of the model. -/

namespace Sys2Proof

/-- The two parameters of a core, fixed per instance and never written by a command or by the host
(10_state R48). A state carries them (log 1), so a statement about every state holds for every choice. -/
structure Config where
  /-- MEM_SIZE, the bytes of local memory (00_scope R6, 92 D5). -/
  memSize : Nat
  /-- CLAMP_MASK, the 128-bit Poly1305 clamp (43_poly1305 R161, 92 D14). -/
  clampMask : BitVec 128
deriving DecidableEq, Repr

namespace Config

/-- The bits every CLAMP_MASK has clear: bits 7:6 of bytes 3, 7, 11 and 15 (43_poly1305 R161). -/
def clampMustClear : BitVec 128 := 0xC0000000C0000000C0000000C0000000#128

/-- The default CLAMP_MASK (00_scope R6, 43_poly1305 R161; log 3). -/
def defaultClampMask : BitVec 128 := 0x0ffffffc0ffffffc0ffffffc0fffffff#128

/-- The parameters the spec admits: 1 ≤ MEM_SIZE ≤ 2^32, and a CLAMP_MASK with the source's bits clear
(00_scope R6, 43_poly1305 R161). -/
def wf (c : Config) : Bool :=
  decide (1 ≤ c.memSize) && decide (c.memSize ≤ 2 ^ 32) && (c.clampMask &&& clampMustClear == 0#128)

/-- The parameters of `State.reset`: MEM_SIZE = 0x400 is the size the spec's programs run with
(DESIGN CHOICE, log 2); CLAMP_MASK is the default (log 3). -/
def atReset : Config := { memSize := 0x400, clampMask := defaultClampMask }

/-- FREE VALUE (log 4). `unwrittenByte seed a` is what MEM[a] holds while nothing has written it since
power-on: unspecified (20_memory R61, R69; 70_reset R242). `seed` is the state's `memSeed`. It has no
body, so nothing can be proved of its value. -/
opaque unwrittenByte : Nat → Nat → Byte

end Config

/-- P = 2^130 − 5 (43_poly1305 R160). -/
def P : Nat := 2 ^ 130 - 5

/-- SIGMA[0..3], the words of "expand 32-byte k" (41_block R120). -/
def SIGMA : Vector Word 4 := #v[0x61707865#32, 0x3320646e#32, 0x79622d32#32, 0x6b206574#32]

/-- The round count of SEAL and OPEN (00_scope R6, 44_aead R193). -/
def AEAD_ROUNDS : Nat := 20

end Sys2Proof
end

