-- ==== Sys2Proof/Syntax.lean ====
section
/-! DEFINITION. The commands of the core (30_encoding R84), its pseudo-commands (R89), its registers by
name (10_state R28) and the accesses a host program is made of (20_memory R66 to R70, 30_encoding R90). -/

namespace Sys2Proof

/-- A command: one constructor per row of the opcode map (30_encoding R84). -/
inductive Instr where
  /-- QR a, b, c, d: the quarter-round on four registers of `W` (40 R102). -/
  | qr (a b c d : Fin 16)
  /-- DROUND: one double-round on `W` (40 R105). -/
  | dround
  /-- BINIT: build the initial state (41 R124). -/
  | binit
  /-- BFINAL: feed-forward addition into `KS` (41 R125). -/
  | bfinal
  /-- BLOCK: one keystream block (41 R127). -/
  | block
  /-- STREAM: counter-mode XOR of a buffer (42 R143). -/
  | stream
  /-- MAC_KEY: the MAC's construction from a key (43 R173). -/
  | macKey
  /-- MAC_CLEAR: the explicit accumulator reset (43 R174). -/
  | macClear
  /-- MAC_BLOCK: one fold (43 R175). -/
  | macBlock
  /-- MAC_FINAL: add s, keep the tag (43 R176). -/
  | macFinal
  /-- MAC_TAG: the tag of a message (43 R177). -/
  | macTag
  /-- SEAL: encrypt and authenticate (44 R193). -/
  | aeadSeal
  /-- OPEN: verify and decrypt (44 R194). -/
  | aeadOpen
deriving DecidableEq, Repr

/-- A pseudo-command (30_encoding R89). -/
inductive Pseudo where
  /-- CROUND: the four column quarter-rounds. -/
  | cround
  /-- DIAGROUND: the four diagonal quarter-rounds. -/
  | diaground
  /-- BLOCKSTEPS n: BINIT, n times DROUND, BFINAL. -/
  | blocksteps (n : Nat)
deriving DecidableEq, Repr

/-- The registers of the window by name (10_state R28). -/
inductive RegName where
  | CMD | STATUS | ROUNDS | BASE_CTR | BLK_IDX
  | KEY_ADDR | KEY_LEN | NONCE_ADDR | NONCE_LEN
  | IN_ADDR | IN_LEN | OUT_ADDR | TAG_ADDR | TAG_LEN
  | W (i : Fin 16) | X (i : Fin 16) | KS (i : Fin 16)
  | R_W (j : Fin 4) | S_W (j : Fin 4) | ACC_W (j : Fin 5) | TAG_W (j : Fin 4)
  /-- Any offset of the window that R28 leaves reserved (R44). -/
  | reserved
deriving DecidableEq, Repr

/-- What comes to the core from outside, one element at a time (20_memory R66 to R70, 70_reset R240). -/
inductive HostAccess where
  /-- `RegWrite(off, v)`, 32 bits wide (R66). -/
  | regWrite (off : Nat) (v : Word)
  /-- `RegRead(off)`, 32 bits wide (R67). -/
  | regRead (off : Nat)
  /-- A register access of another width (R70): never admitted. -/
  | regOddWidth (width off : Nat)
  /-- `HostMemWrite(a, byte)` (R68). -/
  | memWrite (a : Nat) (b : Byte)
  /-- `HostMemRead(a)` (R69). -/
  | memRead (a : Nat)
  /-- The platform asserts reset between two accesses (R240). -/
  | reset
deriving DecidableEq, Repr

/-- What a host read returns: 32 bits of a register or one byte of MEM (20_memory R74). -/
inductive HostValue where
  | reg (v : Word)
  | mem (b : Byte)
deriving DecidableEq, Repr

end Sys2Proof
end

