-- ==== Sys2Proof/Machine/State.lean ====
section
/-! DEFINITION. The state of the core as plain data (10_state R20 to R48, 20_memory R61), the error kinds
and phases, why a step can stop, and the state after reset. -/

namespace Sys2Proof.Machine

/-- The error kinds (60_exceptions R210). -/
inductive ErrorKind where
  | invalidKeyLength
  | invalidNonceLength
  | invalidTagLength
  | authenticationFailure
  | rangeError
  | illegalCommand
  | invalidRounds
deriving DecidableEq, Repr

/-- The phases of the AEAD state machine (10_state R32). TRANSFORM is never an end state (44_aead R197). -/
inductive Phase where
  | START
  | VALIDATE
  | TAG
  | TRANSFORM
  | DONE
deriving DecidableEq, Repr

/-- The fields of STATUS (10_state R30). The reserved bits hold nothing and read 0 (R44; log 10). -/
structure Status where
  /-- ERR, bits [3:0]. -/
  err : BitVec 4
  /-- PHASE, bits [6:4]. -/
  phase : BitVec 3
  /-- ERRSEEN, bit [16]. -/
  errSeen : Bool
deriving DecidableEq, Repr

/-- MEM (20_memory R61): the bytes written since power-on, as (address, byte) pairs with strictly rising
addresses. An unlisted address is one nothing has written (log 4). -/
abbrev Memory := List Host.Cell

/-- The state of the core and of the host's side of its run. Names are the spec's. -/
structure State where
  /-- Working state (10_state R20). -/
  W : RegFile
  /-- Initial state (10_state R22). -/
  X : RegFile
  /-- Keystream buffer (10_state R23). -/
  KS : RegFile
  /-- MAC multiplier (10_state R24). -/
  R : BitVec 128
  /-- MAC additive secret (10_state R25). -/
  S : BitVec 128
  /-- MAC accumulator (10_state R26). -/
  ACC : BitVec 130
  /-- Last tag (10_state R27). -/
  TAG : BitVec 128
  /-- STATUS (10_state R30). -/
  status : Status
  /-- Round count of BLOCK and STREAM (10_state R34). -/
  ROUNDS : BitVec 8
  /-- Base counter (10_state R35). -/
  BASE_CTR : Word
  /-- Block index (10_state R36). -/
  BLK_IDX : Word
  /-- Descriptor registers (10_state R37). -/
  KEY_ADDR : Word
  KEY_LEN : Word
  NONCE_ADDR : Word
  NONCE_LEN : Word
  IN_ADDR : Word
  IN_LEN : Word
  OUT_ADDR : Word
  TAG_ADDR : Word
  TAG_LEN : Word
  /-- MEM (20_memory R61). -/
  mem : Memory
  /-- The model's own field: names the unspecified power-on contents of MEM (log 4, log 5). -/
  memSeed : Nat
  /-- The parameters of the core, which nothing writes (10_state R48; log 1). -/
  cfg : Config
  /-- The host's accesses still to come, the next one first (70_reset R252; log 6). -/
  pending : List HostAccess
  /-- The values the host's reads have returned, in order (70_reset R252; log 7). -/
  returned : List HostValue
deriving DecidableEq, Repr

/-- Why the machine stops with a fault: never. The core has no traps; every error is a status code of a
next state (60_exceptions R210, R214), so this type has no constructor (log 9). -/
inductive Fault where
deriving DecidableEq, Repr

/-- Why a step has no meaning. -/
inductive Refusal where
  /-- Raised by an arm of `exec` for a command that has no meaning yet. Safe: the machine stops. No arm
  raises it in this model. -/
  | notModelled (mnemonic : String)
  /-- Raised by a register access whose offset is not a multiple of 4, which is outside the spec
  (20_memory R70). Safe: the machine stops (log 11). -/
  | misalignedOffset
  /-- Raised by a register access at an offset of 0x1000 or more, which is outside the spec
  (20_memory R70). Safe: the machine stops (log 11). -/
  | offsetOutsideWindow
  /-- Raised by a register access narrower or wider than 32 bits, which is outside the spec
  (20_memory R70). Safe: the machine stops (log 11). -/
  | registerWidth
  /-- Raised by a host access to MEM at an address of MEM_SIZE or more, which is outside the spec
  (20_memory R70). Safe: the machine stops (log 11). -/
  | addressOutsideMem
deriving DecidableEq, Repr

/-- STATUS after reset: ERR = 0, PHASE = START, ERRSEEN = 0 (10_state R46). -/
def Status.atReset : Status := { err := 0#4, phase := 0#3, errSeen := false }

/-- The state right after power-on and reset: every register as 10_state R46 says, no byte of MEM written
(20_memory R61), the parameters of `Config.atReset` (log 2, log 3), `memSeed` 0 (log 5), and no access
of the host yet (70_reset R243). -/
def State.reset : State :=
  { W := RegFile.fill 0#32, X := RegFile.fill 0#32, KS := RegFile.fill 0#32,
    R := 0#128, S := 0#128, ACC := 0#130, TAG := 0#128,
    status := Status.atReset,
    ROUNDS := 20#8, BASE_CTR := 0#32, BLK_IDX := 0#32,
    KEY_ADDR := 0#32, KEY_LEN := 0#32, NONCE_ADDR := 0#32, NONCE_LEN := 0#32,
    IN_ADDR := 0#32, IN_LEN := 0#32, OUT_ADDR := 0#32, TAG_ADDR := 0#32, TAG_LEN := 0#32,
    mem := [], memSeed := 0, cfg := Config.atReset, pending := [], returned := [] }

end Sys2Proof.Machine
end

