-- ==== Sys2Proof/Machine/Flags.lean ====
section
/-! DEFINITION. STATUS: the codes of its fields and every computation on them (10_state R30 to R33,
60_exceptions R210, R214). -/

namespace Sys2Proof.Machine

/-- The code of an error kind in STATUS.ERR (60_exceptions R210). -/
def ErrorKind.code : ErrorKind → BitVec 4
  | .invalidKeyLength => 1#4
  | .invalidNonceLength => 2#4
  | .invalidTagLength => 3#4
  | .authenticationFailure => 4#4
  | .rangeError => 5#4
  | .illegalCommand => 6#4
  | .invalidRounds => 7#4

/-- The code of a phase in STATUS.PHASE (10_state R32). -/
def Phase.code : Phase → BitVec 3
  | .START => 0#3
  | .VALIDATE => 1#3
  | .TAG => 2#3
  | .TRANSFORM => 3#3
  | .DONE => 4#3

/-- The phase a SEAL or OPEN that raises an error ends in (44_aead R197). -/
def ErrorKind.phase : ErrorKind → Phase
  | .authenticationFailure => .TAG
  | .invalidKeyLength => .VALIDATE
  | .invalidNonceLength => .VALIDATE
  | .invalidTagLength => .VALIDATE
  | .rangeError => .VALIDATE
  | .illegalCommand => .VALIDATE
  | .invalidRounds => .VALIDATE

namespace Status

/-- The 32-bit value a read of STATUS returns (10_state R30). -/
def word (st : Status) : Word :=
  0#15 ++ BitVec.ofBool st.errSeen ++ 0#9 ++ st.phase ++ st.err

/-- A command completed: ERR <- 0 (60_exceptions R214). -/
def completed (st : Status) : Status := { st with err := 0#4 }

/-- A command raised `e`: ERR <- code(e), ERRSEEN <- 1 (60_exceptions R214). -/
def raised (e : ErrorKind) (st : Status) : Status := { st with err := e.code, errSeen := true }

/-- PHASE <- p (10_state R32). -/
def withPhase (p : Phase) (st : Status) : Status := { st with phase := p.code }

/-- A host write of `v` to STATUS: bit 16 set clears ERRSEEN, nothing else changes (10_state R30, R33). -/
def hostWrite (v : Word) (st : Status) : Status := { st with errSeen := st.errSeen && !v.getLsbD 16 }

end Status

end Sys2Proof.Machine
end

