-- ==== Sys2Proof/Machine/Ops.lean ====
section
/-! DEFINITION. The named operations over MEM and the registers, and the end of a command: completing, or
taking an error (60_exceptions R214), which is the core's only form of trap entry. -/

namespace Sys2Proof.Machine

/-! ### MEM as data -/

namespace Memory

/-- The byte written at address `a`, if one has been. -/
def lookup : Memory → Nat → Option Byte
  | [], _ => none
  | c :: rest, a => if c.1 = a then some c.2 else lookup rest a

/-- `MEM[a] <- b`, keeping the addresses strictly rising. -/
def insert : Memory → Nat → Byte → Memory
  | [], a, b => [(a, b)]
  | c :: rest, a, b =>
    if a < c.1 then (a, b) :: c :: rest
    else if a = c.1 then (a, b) :: rest
    else c :: insert rest a b

/-- `MemWrite(addr, n, v)`: the bytes in ascending address order (00_scope R12). -/
def writeBytes : Memory → Nat → List Byte → Memory
  | m, _, [] => m
  | m, a, b :: bs => writeBytes (insert m a b) (a + 1) bs

/-- The canonical form: strictly rising addresses. -/
def wf : Memory → Bool
  | [] => true
  | [_] => true
  | c :: d :: rest => decide (c.1 < d.1) && wf (d :: rest)

/-- Every listed address is one of MEM's (20_memory R61). -/
def within (memSize : Nat) (m : Memory) : Bool := m.all fun c => decide (c.1 < memSize)

end Memory

/-! ### Buffers (20_memory R64, R65) -/

/-- A buffer: the bytes MEM[addr ..< addr + len] (20_memory R64). -/
structure Buffer where
  addr : Nat
  len : Nat
deriving DecidableEq, Repr

/-- `inrange(A, L)` on unbounded integers (20_memory R65). -/
def Buffer.inRange (memSize : Nat) (b : Buffer) : Bool := decide (b.addr + b.len ≤ memSize)

namespace State

/-! ### Reading and writing MEM -/

/-- MEM[a]: the byte written there, or the free value of an unwritten byte (20_memory R61, R69; log 4). -/
def readByte (s : State) (a : Nat) : Byte :=
  match s.mem.lookup a with
  | some b => b
  | none => Config.unwrittenByte s.memSeed a

/-- `MemRead(addr, n)` of a buffer (00_scope R12). -/
def readBuffer (s : State) (b : Buffer) : List Byte :=
  (List.range b.len).map fun i => s.readByte (b.addr + i)

/-- `MemWrite(addr, n, v)` (00_scope R12). -/
def writeBytes (s : State) (a : Nat) (bs : List Byte) : State :=
  { s with mem := s.mem.writeBytes a bs }

/-! ### The end of a command -/

/-- The command completed: STATUS.ERR <- 0 (60_exceptions R214). -/
def complete (s : State) : State := { s with status := s.status.completed }

/-- Taking an error (60_exceptions R214): ERR and ERRSEEN are written; nothing else is saved and nothing
else changes (R220). There is no return from it: the core is ready for the host's next access (R221). -/
def raise (e : ErrorKind) (s : State) : State := { s with status := s.status.raised e }

/-- STATUS.PHASE <- p (10_state R32). -/
def setPhase (p : Phase) (s : State) : State := { s with status := s.status.withPhase p }

/-- The whole of a command but SEAL and OPEN: take the error its checks found, or perform its effect and
complete (60_exceptions R214, R220). -/
def command (s : State) (failure : Option ErrorKind) (effect : State) : State :=
  match failure with
  | some e => s.raise e
  | none => effect.complete

/-- The whole of SEAL or OPEN: as `command`, with PHASE written too (60_exceptions R214, 44_aead R197). -/
def aeadCommand (s : State) (failure : Option ErrorKind) (effect : State) : State :=
  match failure with
  | some e => (s.raise e).setPhase e.phase
  | none => effect.complete.setPhase .DONE

/-! ### Clearing the sticky error, and reset -/

/-- The host's write of `v` to STATUS (10_state R33). -/
def writeStatus (v : Word) (s : State) : State := { s with status := s.status.hostWrite v }

/-- Reset asserted by the platform: every register as 10_state R46 says, MEM unchanged (70_reset R241,
R242), and the host's side of the run untouched (log 8). -/
def applyReset (s : State) : State :=
  { State.reset with
    mem := s.mem, memSeed := s.memSeed, cfg := s.cfg, pending := s.pending, returned := s.returned }

/-! ### The host's side of the run -/

/-- A host read returned `v` (70_reset R252; log 7). -/
def returnValue (v : HostValue) (s : State) : State := { s with returned := s.returned ++ [v] }

/-- The accesses still to come are `rest`. -/
def withPending (rest : List HostAccess) (s : State) : State := { s with pending := rest }

end State

end Sys2Proof.Machine
end

