-- ==== Sys2Proof/Machine/Operands.lean ====
section
/-! DEFINITION. The operand forms: byte-sequence conversions (00_scope R10), the buffers a command names by
its descriptor registers (20_memory R64), and the checks a command makes on them (60_exceptions R219). -/

namespace Sys2Proof.Machine

/-! ### Byte sequences (00_scope R10) -/

/-- `le_int(b)`. -/
def leInt : List Byte → Nat
  | [] => 0
  | b :: bs => b.toNat + 256 * leInt bs

/-- `le32(b, j)`, the j-th 32-bit word of b. -/
def le32 (b : List Byte) (j : Nat) : Word := BitVec.ofNat 32 (leInt ((b.drop (4 * j)).take 4))

/-- `bytes_le(n, v)`. -/
def bytesLE : Nat → Nat → List Byte
  | 0, _ => []
  | n + 1, v => BitVec.ofNat 8 v :: bytesLE n (v / 256)

/-- `ser(w[0..15])`, the 64 bytes of sixteen words. -/
def ser (w : RegFile) : List Byte := w.toList.flatMap fun x => bytesLE 4 x.toNat

/-- A message cut into pieces of `n` bytes, the last of which may be shorter (42_stream R141 with n = 64,
43_poly1305 R165 with n = 16). -/
def pieces (n : Nat) (m : List Byte) : List (List Byte) :=
  (List.range ((m.length + (n - 1)) / n)).map fun i => (m.drop (n * i)).take n

namespace State

/-! ### The buffers (10_state R37, 20_memory R64) -/

/-- The key buffer, 32 bytes at KEY_ADDR. -/
def keyBuffer (s : State) : Buffer := { addr := s.KEY_ADDR.toNat, len := 32 }

/-- The nonce buffer, 12 bytes at NONCE_ADDR. -/
def nonceBuffer (s : State) : Buffer := { addr := s.NONCE_ADDR.toNat, len := 12 }

/-- The input buffer, IN_LEN bytes at IN_ADDR. -/
def inBuffer (s : State) : Buffer := { addr := s.IN_ADDR.toNat, len := s.IN_LEN.toNat }

/-- The output buffer, IN_LEN bytes at OUT_ADDR. -/
def outBuffer (s : State) : Buffer := { addr := s.OUT_ADDR.toNat, len := s.IN_LEN.toNat }

/-- The tag buffer, 16 bytes at TAG_ADDR. -/
def tagBuffer (s : State) : Buffer := { addr := s.TAG_ADDR.toNat, len := 16 }

/-- The bytes of the key. -/
def key (s : State) : List Byte := s.readBuffer s.keyBuffer

/-- The bytes of the nonce. -/
def nonce (s : State) : List Byte := s.readBuffer s.nonceBuffer

/-- The bytes of the input message. -/
def input (s : State) : List Byte := s.readBuffer s.inBuffer

/-- The bytes of the tag buffer. -/
def suppliedTag (s : State) : List Byte := s.readBuffer s.tagBuffer

/-! ### The other operands -/

/-- The round count n = ROUNDS[7:0] (41_block R128). -/
def rounds (s : State) : Nat := s.ROUNDS.toNat

/-- The block counter, (BASE_CTR + BLK_IDX) mod 2^32 (41_block R123). -/
def blockCounter (s : State) : Word := s.BASE_CTR + s.BLK_IDX

end State

/-! ### Checks (60_exceptions R219) -/

/-- A check a command makes: whether it fails, and the error it then raises. -/
abbrev Check := Bool × ErrorKind

/-- The error of the first check that fails; later checks are not made (60_exceptions R219). -/
def firstFailure : List Check → Option ErrorKind
  | [] => none
  | (failed, e) :: rest => if failed then some e else firstFailure rest

namespace State

/-- KEY_LEN must be 32 (60_exceptions R211). -/
def keyLenCheck (s : State) : Check := (s.KEY_LEN != 32#32, .invalidKeyLength)

/-- NONCE_LEN must be 12 (60_exceptions R212). -/
def nonceLenCheck (s : State) : Check := (s.NONCE_LEN != 12#32, .invalidNonceLength)

/-- TAG_LEN must be 16 (60_exceptions R213). -/
def tagLenCheck (s : State) : Check := (s.TAG_LEN != 16#32, .invalidTagLength)

/-- The round count must be even and not 0 (41_block R128, 60_exceptions R218). -/
def roundsCheck (s : State) : Check :=
  (s.rounds == 0 || s.rounds % 2 == 1, .invalidRounds)

/-- Every buffer must be in range (20_memory R65, 60_exceptions R216). -/
def rangeCheck (s : State) (buffers : List Buffer) : Check :=
  (!buffers.all fun b => b.inRange s.cfg.memSize, .rangeError)

/-- MAC_BLOCK's IN_LEN must be 1 to 16 (43_poly1305 R175). -/
def blockLenCheck (s : State) : Check :=
  (s.IN_LEN.toNat == 0 || decide (16 < s.IN_LEN.toNat), .rangeError)

end State

end Sys2Proof.Machine
end

