-- ==== Sys2Proof/Machine/Poly1305.lean ====
section
/-! DEFINITION. The Poly1305 engine: MAC_KEY, MAC_CLEAR, MAC_BLOCK, MAC_FINAL, MAC_TAG
(spec/43_poly1305.md). -/

namespace Sys2Proof.Machine

/-- The clamped multiplier r of a key (43 R161). -/
def multiplierOf (clampMask : BitVec 128) (key : List Byte) : BitVec 128 :=
  BitVec.ofNat 128 (leInt (key.take 16)) &&& clampMask

/-- The additive secret s of a key (43 R162). -/
def secretOf (key : List Byte) : BitVec 128 := BitVec.ofNat 128 (leInt ((key.drop 16).take 16))

/-- `mulmod(r, h) = (r * h) mod P` (43 R163). -/
def mulmod (r h : Nat) : Nat := (r * h) % P

/-- `blockval(b)`: a full block has no marker; a shorter one gets a 1 byte after its last (43 R166). -/
def blockval (b : List Byte) : Nat :=
  if b.length = 16 then leInt b else leInt (b ++ [0x01#8] ++ List.replicate (15 - b.length) 0x00#8)

/-- `fold(R, ACC, b)` (43 R168). -/
def fold (r acc : Nat) (b : List Byte) : Nat := mulmod r (acc + blockval b)

/-- The folds of the blocks of a message, in order (43 R165, R177). -/
def foldMessage (r acc : Nat) (m : List Byte) : Nat := (pieces 16 m).foldl (fold r) acc

/-- `final(ACC, S) = (ACC + S) mod P` (43 R169). -/
def final (acc s : Nat) : Nat := (acc + s) % P

/-- The tag bytes of a finalised accumulator value (43 R170). -/
def tagBytes (a : Nat) : List Byte := bytesLE 16 (a % 2 ^ 128)

/-- ACC <- a (10_state R26). -/
def State.setAcc (a : Nat) (s : State) : State := { s with ACC := BitVec.ofNat 130 a }

/-- ACC <- a; TAG <- a mod 2^128 (43 R170, R176). -/
def State.setAccTag (a : Nat) (s : State) : State :=
  { s with ACC := BitVec.ofNat 130 a, TAG := BitVec.ofNat 128 a }

/-- The checks of MAC_KEY, in order (43 R173). -/
def macKeyFailure (s : State) : Option ErrorKind :=
  firstFailure [s.keyLenCheck, s.rangeCheck [s.keyBuffer]]

/-- MAC_KEY — construct the MAC from a key (43 R173). -/
def execMacKey (s : State) : Host.Outcome State Fault Refusal :=
  .next (s.command (macKeyFailure s)
    { s with R := multiplierOf s.cfg.clampMask s.key, S := secretOf s.key, ACC := 0#130 })

/-- MAC_CLEAR — explicit accumulator reset (43 R174). -/
def execMacClear (s : State) : Host.Outcome State Fault Refusal :=
  .next (s.command none (s.setAcc 0))

/-- The checks of MAC_BLOCK, in order (43 R175). -/
def macBlockFailure (s : State) : Option ErrorKind :=
  firstFailure [s.blockLenCheck, s.rangeCheck [s.inBuffer]]

/-- MAC_BLOCK — fold one block (43 R175). -/
def execMacBlock (s : State) : Host.Outcome State Fault Refusal :=
  .next (s.command (macBlockFailure s) (s.setAcc (fold s.R.toNat s.ACC.toNat s.input)))

/-- MAC_FINAL — add s, keep the tag (43 R176). -/
def execMacFinal (s : State) : Host.Outcome State Fault Refusal :=
  .next (s.command none (s.setAccTag (final s.ACC.toNat s.S.toNat)))

/-- The checks of MAC_TAG (43 R177). -/
def macTagFailure (s : State) : Option ErrorKind :=
  firstFailure [s.rangeCheck [s.inBuffer, s.tagBuffer]]

/-- The finalised accumulator of MAC_TAG, from whatever ACC holds (43 R177, R178). -/
def State.finalised (s : State) : Nat :=
  final (foldMessage s.R.toNat s.ACC.toNat s.input) s.S.toNat

/-- MAC_TAG — `create_tag(message)` (43 R177). -/
def execMacTag (s : State) : Host.Outcome State Fault Refusal :=
  .next (s.command (macTagFailure s)
    ((s.setAccTag s.finalised).writeBytes s.tagBuffer.addr (tagBytes s.finalised)))

end Sys2Proof.Machine
end

