-- ==== Sys2Proof/Machine/QuarterRound.lean ====
section
/-! DEFINITION. The quarter-round pipeline: QR and DROUND (spec/40_quarter_round.md). -/

namespace Sys2Proof.Machine

/-- `arx(p, q, r, n)`: W[p] += W[q]; W[r] ^= W[p]; W[r] <<<= n, each line on the registers as the previous
line left them (40 R100). -/
def arx (p q r : Fin 16) (n : Nat) (w : RegFile) : RegFile :=
  let added := w.set p (w[p] + w[q])
  let xored := added.set r (added[r] ^^^ added[p])
  xored.set r (rotl xored[r] n)

/-- `quarter(a, b, c, d)`: four stages in order, whatever the indices (40 R101, R103). -/
def quarter (a b c d : Fin 16) (w : RegFile) : RegFile :=
  arx c d b 7 (arx a b d 8 (arx c d b 12 (arx a b d 16 w)))

/-- The eight index tuples of a double-round, in order (40 R104). -/
def doubleRoundTuples : List (Fin 16 × Fin 16 × Fin 16 × Fin 16) :=
  [ (0, 4, 8, 12), (1, 5, 9, 13), (2, 6, 10, 14), (3, 7, 11, 15),
    (0, 5, 10, 15), (1, 6, 11, 12), (2, 7, 8, 13), (3, 4, 9, 14) ]

/-- One double-round: the eight quarter-rounds in order (40 R105). -/
def doubleRound (w : RegFile) : RegFile :=
  doubleRoundTuples.foldl (fun w t => quarter t.1 t.2.1 t.2.2.1 t.2.2.2 w) w

/-- `k` double-rounds. -/
def doubleRounds : Nat → RegFile → RegFile
  | 0, w => w
  | k + 1, w => doubleRounds k (doubleRound w)

/-- QR — quarter-round on four registers of W (40 R102, R103). -/
def execQr (a b c d : Fin 16) (s : State) : Host.Outcome State Fault Refusal :=
  .next (s.command none { s with W := quarter a b c d s.W })

/-- DROUND — one double-round on W (40 R105). -/
def execDround (s : State) : Host.Outcome State Fault Refusal :=
  .next (s.command none { s with W := doubleRound s.W })

end Sys2Proof.Machine
end

