-- ==== Sys2Proof/Machine/Block.lean ====
section
/-! DEFINITION. The block function engine: BINIT, BFINAL, BLOCK (spec/41_block.md). -/

namespace Sys2Proof.Machine

/-- `init_state(key, ctr, nonce)`: constants, key words, counter, nonce words (41 R121). -/
def initState (key : List Byte) (ctr : Word) (nonce : List Byte) : RegFile :=
  #v[ SIGMA[0], SIGMA[1], SIGMA[2], SIGMA[3],
      le32 key 0, le32 key 1, le32 key 2, le32 key 3,
      le32 key 4, le32 key 5, le32 key 6, le32 key 7,
      ctr, le32 nonce 0, le32 nonce 1, le32 nonce 2 ]

/-- The elementwise sum mod 2^32 of two register files (41 R122, R125). -/
def addWords (x w : RegFile) : RegFile := Vector.zipWith (· + ·) x w

/-- The working state of the block function after its n / 2 double-rounds (41 R122). -/
def workingState (key : List Byte) (ctr : Word) (nonce : List Byte) (n : Nat) : RegFile :=
  doubleRounds (n / 2) (initState key ctr nonce)

/-- The output words of the block function, the third component of `blockfn` (41 R122). -/
def blockOutput (key : List Byte) (ctr : Word) (nonce : List Byte) (n : Nat) : RegFile :=
  addWords (initState key ctr nonce) (workingState key ctr nonce n)

/-- `key_stream(key, nonce, ctr, n)`, the 64 bytes of a block (41 R126). -/
def keyStream (key nonce : List Byte) (ctr : Word) (n : Nat) : List Byte :=
  ser (blockOutput key ctr nonce n)

/-- The checks of BINIT, in order (41 R124). -/
def binitFailure (s : State) : Option ErrorKind :=
  firstFailure [s.keyLenCheck, s.nonceLenCheck, s.rangeCheck [s.keyBuffer, s.nonceBuffer]]

/-- The initial state BINIT and BLOCK build from a state's operands (41 R121, R123). -/
def State.builtState (s : State) : RegFile := initState s.key s.blockCounter s.nonce

/-- BINIT — build the initial state and copy it to the working state (41 R124). -/
def execBinit (s : State) : Host.Outcome State Fault Refusal :=
  .next (s.command (binitFailure s) { s with X := s.builtState, W := s.builtState })

/-- BFINAL — feed-forward addition into the keystream buffer (41 R125). -/
def execBfinal (s : State) : Host.Outcome State Fault Refusal :=
  .next (s.command none { s with KS := addWords s.X s.W })

/-- The checks of BLOCK, in order (41 R127). -/
def blockFailure (s : State) : Option ErrorKind :=
  firstFailure
    [s.keyLenCheck, s.nonceLenCheck, s.roundsCheck, s.rangeCheck [s.keyBuffer, s.nonceBuffer]]

/-- BLOCK — compute one keystream block (41 R127). -/
def execBlock (s : State) : Host.Outcome State Fault Refusal :=
  .next (s.command (blockFailure s)
    { s with
      X := s.builtState
      W := workingState s.key s.blockCounter s.nonce s.rounds
      KS := blockOutput s.key s.blockCounter s.nonce s.rounds })

end Sys2Proof.Machine
end

