-- ==== Sys2Proof/Machine/Stream.lean ====
section
/-! DEFINITION. The counter-mode XOR keystream generator: STREAM (spec/42_stream.md). -/

namespace Sys2Proof.Machine

/-- A chunk XORed byte for byte with the first bytes of a keystream; the keystream's tail is discarded
(42 R142). -/
def xorBytes (chunk ks : List Byte) : List Byte := List.zipWith (· ^^^ ·) chunk ks

/-- The chunks of a message from counter `ctr` on, one counter value per chunk, wrapping at 2^32 (42 R140,
R146). -/
def xorChunks (key nonce : List Byte) (n : Nat) : Word → List (List Byte) → List Byte
  | _, [] => []
  | ctr, chunk :: rest =>
    xorBytes chunk (keyStream key nonce ctr n) ++ xorChunks key nonce n (ctr + 1#32) rest

/-- `xor_stream(key, nonce, base, n, m)` (42 R142). -/
def xorStream (key nonce : List Byte) (base : Word) (n : Nat) (m : List Byte) : List Byte :=
  xorChunks key nonce n base (pieces 64 m)

/-- The checks of STREAM, in order (42 R143). -/
def streamFailure (s : State) : Option ErrorKind :=
  firstFailure
    [s.keyLenCheck, s.nonceLenCheck, s.roundsCheck,
     s.rangeCheck [s.keyBuffer, s.nonceBuffer, s.inBuffer, s.outBuffer]]

/-- STREAM — encrypt or decrypt a buffer in counter mode; it keeps no state (42 R143, R145). -/
def execStream (s : State) : Host.Outcome State Fault Refusal :=
  .next (s.command (streamFailure s)
    (s.writeBytes s.outBuffer.addr (xorStream s.key s.nonce s.BASE_CTR s.rounds s.input)))

end Sys2Proof.Machine
end

