-- ==== Sys2Proof/Machine/Aead.lean ====
section
/-! DEFINITION. The AEAD orchestrator: SEAL and OPEN (spec/44_aead.md). -/

namespace Sys2Proof.Machine

/-- `mac_fresh(key, m)`: the tag from a zero accumulator with the key's own r and s (44 R191). -/
def macFresh (clampMask : BitVec 128) (key m : List Byte) : List Byte :=
  tagBytes (final (foldMessage (multiplierOf clampMask key).toNat 0 m) (secretOf key).toNat)

/-- The AEAD's cipher: base counter 0, 20 rounds, whatever the registers hold (44 R193, R196). -/
def aeadCipher (key nonce m : List Byte) : List Byte := xorStream key nonce 0#32 AEAD_ROUNDS m

/-- The five buffers of SEAL and OPEN. -/
def State.aeadBuffers (s : State) : List Buffer :=
  [s.keyBuffer, s.nonceBuffer, s.inBuffer, s.outBuffer, s.tagBuffer]

/-- The checks of SEAL, in order (44 R193). -/
def sealFailure (s : State) : Option ErrorKind :=
  firstFailure [s.keyLenCheck, s.nonceLenCheck, s.rangeCheck s.aeadBuffers]

/-- The ciphertext SEAL computes (44 R193). -/
def State.sealed (s : State) : List Byte := aeadCipher s.key s.nonce s.input

/-- SEAL — encrypt, tag the ciphertext, write the ciphertext and then the tag (44 R193, 20_memory R73). -/
def execAeadSeal (s : State) : Host.Outcome State Fault Refusal :=
  .next (s.aeadCommand (sealFailure s)
    ((s.writeBytes s.outBuffer.addr s.sealed).writeBytes s.tagBuffer.addr
      (macFresh s.cfg.clampMask s.key s.sealed)))

/-- OPEN's comparison: at least one byte of the recomputed tag differs from the supplied one (44 R195). -/
def State.tagMismatch (s : State) : Bool :=
  macFresh s.cfg.clampMask s.key s.input != s.suppliedTag

/-- The recomputed tag must match the supplied one in every byte (44 R195). -/
def State.tagMatchCheck (s : State) : Check := (s.tagMismatch, .authenticationFailure)

/-- The checks of OPEN, in order (44 R194). -/
def openFailure (s : State) : Option ErrorKind :=
  firstFailure
    [s.keyLenCheck, s.nonceLenCheck, s.tagLenCheck, s.rangeCheck s.aeadBuffers, s.tagMatchCheck]

/-- OPEN — verify the tag, then decrypt (44 R194). -/
def execAeadOpen (s : State) : Host.Outcome State Fault Refusal :=
  .next (s.aeadCommand (openFailure s)
    (s.writeBytes s.outBuffer.addr (aeadCipher s.key s.nonce s.input)))

end Sys2Proof.Machine
end

