-- ==== Sys2Proof/Machine/Dispatch.lean ====
section
/-! DEFINITION. One arm per command (30_encoding R84). -/

namespace Sys2Proof.Machine

def exec (i : Instr) (s : State) : Host.Outcome State Fault Refusal :=
  match i with
  | .qr a b c d => Sys2Proof.Machine.execQr a b c d s
  | .dround => Sys2Proof.Machine.execDround s
  | .binit => Sys2Proof.Machine.execBinit s
  | .bfinal => Sys2Proof.Machine.execBfinal s
  | .block => Sys2Proof.Machine.execBlock s
  | .stream => Sys2Proof.Machine.execStream s
  | .macKey => Sys2Proof.Machine.execMacKey s
  | .macClear => Sys2Proof.Machine.execMacClear s
  | .macBlock => Sys2Proof.Machine.execMacBlock s
  | .macFinal => Sys2Proof.Machine.execMacFinal s
  | .macTag => Sys2Proof.Machine.execMacTag s
  | .aeadSeal => Sys2Proof.Machine.execAeadSeal s
  | .aeadOpen => Sys2Proof.Machine.execAeadOpen s

end Sys2Proof.Machine
end

