-- ==== Sys2Proof/WellFormed.lean ====
section
/-! DEFINITION. The checks on terms. An `Instr` is well-formed by its type (each index of QR is a
`Fin 16`, 30_encoding R83), so the checks are on what a program is written from: the operands of QR as
numbers (30_encoding R88), and the host's accesses (20_memory R70). -/

namespace Sys2Proof

/-- An operand of QR is a number 0 to 15 (30_encoding R88). -/
def qrOperandOk (n : Nat) : Bool := decide (n < 16)

/-- `QR a, b, c, d` from its four numbers, refused unless each is 0 to 15 (30_encoding R88). -/
def Instr.qrOf (a b c d : Nat) : Option Instr :=
  if qrOperandOk a && qrOperandOk b && qrOperandOk c && qrOperandOk d then
    some (.qr (Fin.ofNat 16 a) (Fin.ofNat 16 b) (Fin.ofNat 16 c) (Fin.ofNat 16 d))
  else none

/-- A pseudo-command is well-formed: BLOCKSTEPS takes 1 ≤ n (30_encoding R89). -/
def Pseudo.wf : Pseudo → Bool
  | .cround => true
  | .diaground => true
  | .blocksteps n => decide (1 ≤ n)

/-- An offset the window admits: a multiple of 4 in 0x000 to 0xFFC (20_memory R66, R67). -/
def offsetOk (off : Nat) : Bool := decide (off % 4 = 0) && decide (off < 0x1000)

/-- The accesses 20_memory R66 to R69 admit with `memSize` bytes of MEM, and a reset (70_reset R240).
Every other access is outside the spec (20_memory R70). -/
def HostAccess.wf (memSize : Nat) : HostAccess → Bool
  | .regWrite off _ => offsetOk off
  | .regRead off => offsetOk off
  | .regOddWidth _ _ => false
  | .memWrite a _ => decide (a < memSize)
  | .memRead a => decide (a < memSize)
  | .reset => true

end Sys2Proof
end

