-- ==== Sys2Proof/Decode.lean ====
section
/-! DEFINITION. The opcode map (30_encoding R80 to R87) as rows of mask and match, the decoder made of
it, and the encoder, which is written from the formats (R81, R82) and not from the decoder. -/

namespace Sys2Proof

/-! ### The opcode map and the decoder -/

/-- Bits `lo + 3 : lo` of a command word, a 4-bit index (30_encoding R81, R83). -/
def indexField (v : Word) (lo : Nat) : Fin 16 := (v.extractLsb' lo 4).toFin

/-- A row of the opcode map: the words `v` with `v & mask = pattern` are its commands (30_encoding R84). -/
structure OpcodeRow where
  mnemonic : String
  pattern : Word
  mask : Word
  /-- The command a word of this row stands for. -/
  build : Word → Instr

/-- Format N (30_encoding R82): the mask is all ones. -/
def rowN (mnemonic : String) (opc : Word) (i : Instr) : OpcodeRow :=
  { mnemonic := mnemonic, pattern := opc, mask := 0xFFFFFFFF#32, build := fun _ => i }

/-- Format Q (30_encoding R81), the row of QR. -/
def rowQR : OpcodeRow :=
  { mnemonic := "QR", pattern := 0x00000001#32, mask := 0xFF0000FF#32,
    build := fun v => .qr (indexField v 8) (indexField v 12) (indexField v 16) (indexField v 20) }

/-- The opcode map (30_encoding R84), row by row. -/
def opcodeTable : List OpcodeRow :=
  [ rowQR,
    rowN "DROUND" 0x02#32 .dround,
    rowN "BINIT" 0x03#32 .binit,
    rowN "BFINAL" 0x04#32 .bfinal,
    rowN "BLOCK" 0x05#32 .block,
    rowN "STREAM" 0x10#32 .stream,
    rowN "MAC_KEY" 0x20#32 .macKey,
    rowN "MAC_CLEAR" 0x21#32 .macClear,
    rowN "MAC_BLOCK" 0x22#32 .macBlock,
    rowN "MAC_FINAL" 0x23#32 .macFinal,
    rowN "MAC_TAG" 0x24#32 .macTag,
    rowN "SEAL" 0x30#32 .aeadSeal,
    rowN "OPEN" 0x31#32 .aeadOpen ]

/-- `v & mask = match` (30_encoding R85). -/
def OpcodeRow.selects (r : OpcodeRow) (v : Word) : Bool := v &&& r.mask == r.pattern

/-- Why a word is illegal (30_encoding R86). -/
inductive IllegalWord where
  /-- Bits [7:0] are none of the 13 opcodes. -/
  | unknownOpcode
  /-- The opcode is one of the 13 and a reserved bit is not 0. -/
  | reservedBits
deriving DecidableEq, Repr

/-- Bits [7:0] of a command word, OPC (30_encoding R80). -/
def opcField (v : Word) : BitVec 8 := v.extractLsb' 0 8

/-- Whether some row has the word's opcode. -/
def opcodeKnown (v : Word) : Bool := opcodeTable.any fun r => opcField r.pattern == opcField v

/-- Decode of a command word, total: the command of the row that selects it, or why it is illegal
(30_encoding R85, R86). -/
def decode (v : Word) : Except IllegalWord Instr :=
  match opcodeTable.find? fun r => r.selects v with
  | some r => .ok (r.build v)
  | none => if opcodeKnown v then .error .reservedBits else .error .unknownOpcode

/-! ### The encoder -/

/-- Format Q (30_encoding R81): RSV, QD, QC, QB, QA, OPC from bit 31 down. -/
def encodeQ (opc : BitVec 8) (a b c d : Fin 16) : Word :=
  0#8 ++ (BitVec.ofFin d : BitVec 4) ++ (BitVec.ofFin c : BitVec 4) ++ (BitVec.ofFin b : BitVec 4)
    ++ (BitVec.ofFin a : BitVec 4) ++ opc

/-- Format N (30_encoding R82): RSV, OPC from bit 31 down. -/
def encodeN (opc : BitVec 8) : Word := 0#24 ++ opc

/-- The opcode byte of a command (30_encoding R84, column OPC). -/
def Instr.opcode : Instr → BitVec 8
  | .qr _ _ _ _ => 0x01#8
  | .dround => 0x02#8
  | .binit => 0x03#8
  | .bfinal => 0x04#8
  | .block => 0x05#8
  | .stream => 0x10#8
  | .macKey => 0x20#8
  | .macClear => 0x21#8
  | .macBlock => 0x22#8
  | .macFinal => 0x23#8
  | .macTag => 0x24#8
  | .aeadSeal => 0x30#8
  | .aeadOpen => 0x31#8

/-- The word of a command (30_encoding R81, R82, R84). -/
def encode (i : Instr) : Word :=
  match i with
  | .qr a b c d => encodeQ i.opcode a b c d
  | .dround => encodeN i.opcode
  | .binit => encodeN i.opcode
  | .bfinal => encodeN i.opcode
  | .block => encodeN i.opcode
  | .stream => encodeN i.opcode
  | .macKey => encodeN i.opcode
  | .macClear => encodeN i.opcode
  | .macBlock => encodeN i.opcode
  | .macFinal => encodeN i.opcode
  | .macTag => encodeN i.opcode
  | .aeadSeal => encodeN i.opcode
  | .aeadOpen => encodeN i.opcode

/-- The mnemonic of a command (30_encoding R84, R88). -/
def Instr.mnemonic : Instr → String
  | .qr _ _ _ _ => "QR"
  | .dround => "DROUND"
  | .binit => "BINIT"
  | .bfinal => "BFINAL"
  | .block => "BLOCK"
  | .stream => "STREAM"
  | .macKey => "MAC_KEY"
  | .macClear => "MAC_CLEAR"
  | .macBlock => "MAC_BLOCK"
  | .macFinal => "MAC_FINAL"
  | .macTag => "MAC_TAG"
  | .aeadSeal => "SEAL"
  | .aeadOpen => "OPEN"

/-- The access that issues a command: its word written to CMD (30_encoding R90). -/
def Instr.issue (i : Instr) : HostAccess := .regWrite 0x000 (encode i)

/-! ### Pseudo-commands -/

/-- The column quarter-rounds, in order (30_encoding R89, 40 R104 steps 1 to 4). -/
def columnRound : List Instr := [.qr 0 4 8 12, .qr 1 5 9 13, .qr 2 6 10 14, .qr 3 7 11 15]

/-- The diagonal quarter-rounds, in order (30_encoding R89, 40 R104 steps 5 to 8). -/
def diagonalRound : List Instr := [.qr 0 5 10 15, .qr 1 6 11 12, .qr 2 7 8 13, .qr 3 4 9 14]

/-- The commands a pseudo-command expands to (30_encoding R89). -/
def Pseudo.expand : Pseudo → List Instr
  | .cround => columnRound
  | .diaground => diagonalRound
  | .blocksteps n => .binit :: (List.replicate n .dround ++ [.bfinal])

/-! ### The words of the opcode table -/

/-- The command word whose low `nbits` bits are those of `w` and whose other bits are 0; none if that is
no 32-bit word (30_encoding R80, R87: there is one length). -/
def tableWord (nbits w : Nat) : Option Word :=
  if w % 2 ^ nbits < 2 ^ 32 then some (BitVec.ofNat 32 (w % 2 ^ nbits)) else none

/-- The command the decoder reads from an opcode-table word. -/
def decodeTableWord (nbits w : Nat) : Option Instr :=
  match tableWord nbits w with
  | some v => match decode v with
    | .ok i => some i
    | .error _ => none
  | none => none

end Sys2Proof
end

