-- ==== Sys2Proof/Machine/HostPort.lean ====
section
/-! DEFINITION. The host's accesses (20_memory R66 to R70): the register window (10_state R28 to R45), MEM,
reset, and the issue of a command by a write to CMD. -/

namespace Sys2Proof.Machine

/-- The register at an offset of the window (10_state R28); every offset not listed is reserved (R44). -/
def regAt (off : Nat) : RegName :=
  if off = 0x000 then .CMD
  else if off = 0x004 then .STATUS
  else if off = 0x008 then .ROUNDS
  else if off = 0x00C then .BASE_CTR
  else if off = 0x010 then .BLK_IDX
  else if off = 0x014 then .KEY_ADDR
  else if off = 0x018 then .KEY_LEN
  else if off = 0x01C then .NONCE_ADDR
  else if off = 0x020 then .NONCE_LEN
  else if off = 0x024 then .IN_ADDR
  else if off = 0x028 then .IN_LEN
  else if off = 0x02C then .OUT_ADDR
  else if off = 0x030 then .TAG_ADDR
  else if off = 0x034 then .TAG_LEN
  else if off < 0x040 then .reserved
  else if off < 0x080 then .W (Fin.ofNat 16 ((off - 0x040) / 4))
  else if off < 0x0C0 then .X (Fin.ofNat 16 ((off - 0x080) / 4))
  else if off < 0x100 then .KS (Fin.ofNat 16 ((off - 0x0C0) / 4))
  else if off < 0x110 then .R_W (Fin.ofNat 4 ((off - 0x100) / 4))
  else if off < 0x120 then .S_W (Fin.ofNat 4 ((off - 0x110) / 4))
  else if off < 0x134 then .ACC_W (Fin.ofNat 5 ((off - 0x120) / 4))
  else if off < 0x140 then .reserved
  else if off < 0x150 then .TAG_W (Fin.ofNat 4 ((off - 0x140) / 4))
  else .reserved

/-- `RegRead`: the 32-bit value the host reads (10_state R29 to R44, 20_memory R63, R67). -/
def readReg (r : RegName) (s : State) : Word :=
  match r with
  | .CMD => 0#32
  | .STATUS => s.status.word
  | .ROUNDS => s.ROUNDS.setWidth 32
  | .BASE_CTR => s.BASE_CTR
  | .BLK_IDX => s.BLK_IDX
  | .KEY_ADDR => s.KEY_ADDR
  | .KEY_LEN => s.KEY_LEN
  | .NONCE_ADDR => s.NONCE_ADDR
  | .NONCE_LEN => s.NONCE_LEN
  | .IN_ADDR => s.IN_ADDR
  | .IN_LEN => s.IN_LEN
  | .OUT_ADDR => s.OUT_ADDR
  | .TAG_ADDR => s.TAG_ADDR
  | .TAG_LEN => s.TAG_LEN
  | .W i => s.W[i]
  | .X i => s.X[i]
  | .KS i => s.KS[i]
  | .R_W j => s.R.extractLsb' (32 * j.val) 32
  | .S_W j => s.S.extractLsb' (32 * j.val) 32
  | .ACC_W j => s.ACC.extractLsb' (32 * j.val) 32
  | .TAG_W j => s.TAG.extractLsb' (32 * j.val) 32
  | .reserved => 0#32

/-- `RegWrite` to a register other than CMD (10_state R30 to R45): read-only and reserved ones ignore it.
The write to CMD is `issueCommand`. -/
def writeReg (r : RegName) (v : Word) (s : State) : State :=
  match r with
  | .CMD => s
  | .STATUS => s.writeStatus v
  | .ROUNDS => { s with ROUNDS := v.setWidth 8 }
  | .BASE_CTR => { s with BASE_CTR := v }
  | .BLK_IDX => { s with BLK_IDX := v }
  | .KEY_ADDR => { s with KEY_ADDR := v }
  | .KEY_LEN => { s with KEY_LEN := v }
  | .NONCE_ADDR => { s with NONCE_ADDR := v }
  | .NONCE_LEN => { s with NONCE_LEN := v }
  | .IN_ADDR => { s with IN_ADDR := v }
  | .IN_LEN => { s with IN_LEN := v }
  | .OUT_ADDR => { s with OUT_ADDR := v }
  | .TAG_ADDR => { s with TAG_ADDR := v }
  | .TAG_LEN => { s with TAG_LEN := v }
  | .W i => { s with W := s.W.set i v }
  | .X i => { s with X := s.X.set i v }
  | .KS _ => s
  | .R_W _ => s
  | .S_W _ => s
  | .ACC_W _ => s
  | .TAG_W _ => s
  | .reserved => s

/-- What the next access asks of the core: run a command from a state, or an outcome already. -/
inductive HostAction where
  | run (i : Instr) (s : State)
  | done (o : Host.Outcome State Fault Refusal)

/-- Executing an illegal word: IllegalCommand, which writes ERR and ERRSEEN only (30_encoding R86,
60_exceptions R217). -/
def illegalCommand (s : State) : State := s.command (some .illegalCommand) s

/-- A write of `v` to CMD: decode and execute (10_state R29). -/
def issueCommand (v : Word) (s : State) : HostAction :=
  match decode v with
  | .ok i => .run i s
  | .error _ => .done (.next (illegalCommand s))

/-- Why a register access at `off` is outside the spec, if it is (20_memory R70; log 11). -/
def offsetRefusal (off : Nat) : Option Refusal :=
  if off % 4 ≠ 0 then some .misalignedOffset
  else if 0x1000 ≤ off then some .offsetOutsideWindow
  else none

/-- One access of the host, or a reset (20_memory R66 to R70, 70_reset R240). -/
def serveAccess (access : HostAccess) (s : State) : HostAction :=
  match access with
  | .regWrite off v =>
    match offsetRefusal off with
    | some r => .done (.refused r)
    | none =>
      match regAt off with
      | .CMD => issueCommand v s
      | reg => .done (.next (writeReg reg v s))
  | .regRead off =>
    match offsetRefusal off with
    | some r => .done (.refused r)
    | none => .done (.next (s.returnValue (.reg (readReg (regAt off) s))))
  | .regOddWidth _ _ => .done (.refused .registerWidth)
  | .memWrite a b =>
    if a < s.cfg.memSize then .done (.next (s.writeBytes a [b]))
    else .done (.refused .addressOutsideMem)
  | .memRead a =>
    if a < s.cfg.memSize then .done (.next (s.returnValue (.mem (s.readByte a))))
    else .done (.refused .addressOutsideMem)
  | .reset => .done (.next s.applyReset)

/-- The next thing the core does: serve the host's next access, or stay idle if there is none
(70_reset R243, 60_exceptions R229; log 6). -/
def nextAction (s : State) : HostAction :=
  match s.pending with
  | [] => .done (.next s)
  | access :: rest => serveAccess access (s.withPending rest)

/-- The state in which the write of a command word `v` to CMD is the host's next access. -/
def State.withCommand (v : Word) (s : State) : State :=
  s.withPending (.regWrite 0x000 v :: s.pending)

end Sys2Proof.Machine
end

