-- ==== Sys2Proof/Machine/Step.lean ====
section
/-! DEFINITION. One step: the host's next access, a write to CMD running its whole command (20_memory R72). -/

namespace Sys2Proof.Machine

/-- One step of the machine: one element of the total order of accesses (20_memory R75). -/
def step (s : State) : Host.Outcome State Fault Refusal :=
  match nextAction s with
  | .run i s' => exec i s'
  | .done o => o

/-- The state whose next step runs the command of an opcode-table word: the core fetches nothing
(10_state R21), so the word becomes the host's next access, a write to CMD (log 6). -/
def State.withFetchWord (s : State) (nbits w : Nat) : State :=
  match tableWord nbits w with
  | some v => s.withCommand v
  | none => s

end Sys2Proof.Machine
end

