-- ==== Sys2Proof/Safety.lean ====
section
/-! DEFINITION. What a safe run is, in the terms the statements use: the invariant of the core's states and
the runs the spec admits (70_reset R252). -/

namespace Sys2Proof.Machine

/-- The invariant of the core: admitted parameters (00_scope R6, 43_poly1305 R161), MEM in canonical form
and inside MEM_SIZE (20_memory R61), ACC < P (43_poly1305 R171), R clear wherever CLAMP_MASK is
(10_state R24), ERR one of the codes 0 to 7 and PHASE one of 0, 1, 2, 4 (60_exceptions R210, 44_aead R197,
93 I11). -/
structure State.Inv (s : State) : Prop where
  cfg_wf : s.cfg.wf = true
  mem_wf : Memory.wf s.mem = true
  mem_within : Memory.within s.cfg.memSize s.mem = true
  acc_lt : s.ACC.toNat < P
  r_clamped : s.R &&& ~~~s.cfg.clampMask = 0#128
  err_legal : s.status.err.toNat ≤ 7
  phase_legal : s.status.phase = 0#3 ∨ s.status.phase = 1#3 ∨ s.status.phase = 2#3 ∨ s.status.phase = 4#3

/-- Every access still to come is admitted (20_memory R70, 70_reset R252). -/
def State.Admitted (s : State) : Prop :=
  s.pending.all (fun access => access.wf s.cfg.memSize) = true

/-- One outcome after another: what comes next runs only from a next state. -/
def andThen (o : Host.Outcome State Fault Refusal) (f : State → Host.Outcome State Fault Refusal) :
    Host.Outcome State Fault Refusal :=
  match o with
  | .next s => f s
  | .fault r => .fault r
  | .refused r => .refused r

/-- Commands one after another, with no other access between them. -/
def runCommands : List Instr → State → Host.Outcome State Fault Refusal
  | [], s => .next s
  | i :: rest, s => andThen (exec i s) (runCommands rest)

end Sys2Proof.Machine
end

