-- ==== Sys2Proof/Certificates/Slice0/Obligations.lean ====
section
/-! DEFINITION. The statements. `Sys2Proof.Claims` says the spec's pseudocode again in its own terms: registers
as functions of their index, MEM as a function of the address, exact arithmetic on natural numbers. -/

namespace Sys2Proof.Claims

open Sys2Proof.Machine

/-! ### The next states of a command (60_exceptions R214) -/

/-- `s` after a command that raised the error with this code. -/
def failed (s : State) (code : BitVec 4) : State :=
  { s with status := { s.status with err := code, errSeen := true } }

/-- `s` after a SEAL or OPEN that raised the error with this code and ended in this phase. -/
def aeadFailed (s : State) (code : BitVec 4) (phase : BitVec 3) : State :=
  { s with status := { err := code, phase := phase, errSeen := true } }

/-- STATUS after a command that completed. -/
def okStatus (s : State) : Status := { s.status with err := 0#4 }

/-- STATUS after a SEAL or OPEN that completed: PHASE = DONE. -/
def doneStatus (s : State) : Status := { s.status with err := 0#4, phase := 4#3 }

/-! ### Which error a command raises (60_exceptions R210 to R219) -/

/-- `inrange(A, L)` (20_memory R65). -/
abbrev fits (s : State) (a : Word) (n : Nat) : Prop := a.toNat + n ≤ s.cfg.memSize

/-- The error code of BINIT (41_block R124). -/
def binitErr (s : State) : BitVec 4 :=
  if s.KEY_LEN ≠ 32#32 then 1#4
  else if s.NONCE_LEN ≠ 12#32 then 2#4
  else if fits s s.KEY_ADDR 32 ∧ fits s s.NONCE_ADDR 12 then 0#4 else 5#4

/-- The error code of BLOCK (41_block R127). -/
def blockErr (s : State) : BitVec 4 :=
  if s.KEY_LEN ≠ 32#32 then 1#4
  else if s.NONCE_LEN ≠ 12#32 then 2#4
  else if s.ROUNDS.toNat = 0 ∨ s.ROUNDS.toNat % 2 = 1 then 7#4
  else if fits s s.KEY_ADDR 32 ∧ fits s s.NONCE_ADDR 12 then 0#4 else 5#4

/-- The error code of STREAM (42_stream R143). -/
def streamErr (s : State) : BitVec 4 :=
  if s.KEY_LEN ≠ 32#32 then 1#4
  else if s.NONCE_LEN ≠ 12#32 then 2#4
  else if s.ROUNDS.toNat = 0 ∨ s.ROUNDS.toNat % 2 = 1 then 7#4
  else if fits s s.KEY_ADDR 32 ∧ fits s s.NONCE_ADDR 12 ∧ fits s s.IN_ADDR s.IN_LEN.toNat ∧
    fits s s.OUT_ADDR s.IN_LEN.toNat then 0#4 else 5#4

/-- The error code of MAC_KEY (43_poly1305 R173). -/
def macKeyErr (s : State) : BitVec 4 :=
  if s.KEY_LEN ≠ 32#32 then 1#4 else if fits s s.KEY_ADDR 32 then 0#4 else 5#4

/-- The error code of MAC_BLOCK (43_poly1305 R175). -/
def macBlockErr (s : State) : BitVec 4 :=
  if s.IN_LEN.toNat = 0 ∨ 16 < s.IN_LEN.toNat then 5#4
  else if fits s s.IN_ADDR s.IN_LEN.toNat then 0#4 else 5#4

/-- The error code of MAC_TAG (43_poly1305 R177). -/
def macTagErr (s : State) : BitVec 4 :=
  if fits s s.IN_ADDR s.IN_LEN.toNat ∧ fits s s.TAG_ADDR 16 then 0#4 else 5#4

/-- All five buffers of SEAL and OPEN are in range (44_aead R193, R194). -/
abbrev aeadFits (s : State) : Prop :=
  fits s s.KEY_ADDR 32 ∧ fits s s.NONCE_ADDR 12 ∧ fits s s.IN_ADDR s.IN_LEN.toNat ∧
    fits s s.OUT_ADDR s.IN_LEN.toNat ∧ fits s s.TAG_ADDR 16

/-- The error code of SEAL (44_aead R193). -/
def sealErr (s : State) : BitVec 4 :=
  if s.KEY_LEN ≠ 32#32 then 1#4
  else if s.NONCE_LEN ≠ 12#32 then 2#4
  else if aeadFits s then 0#4 else 5#4

/-! ### The quarter-round pipeline (spec/40_quarter_round.md) -/

/-- Sixteen words by index. -/
abbrev Regs := Fin 16 → Word

/-- The words of a register file by index. -/
def regs (w : RegFile) : Regs := fun i => w[i]

/-- `rotl(x, n)` by its formula (00_scope R9). -/
def rotate (x : Word) (n : Nat) : Word := (x <<< n) ||| (x >>> (32 - n))

/-- The three lines of `arx(p, q, r, n)` (40 R100). -/
def stage (p q r : Fin 16) (n : Nat) (f : Regs) : Regs :=
  let added := Function.update f p (f p + f q)
  let xored := Function.update added r (added r ^^^ added p)
  Function.update xored r (rotate (xored r) n)

/-- The four stages of `quarter(a, b, c, d)` (40 R101). -/
def quarterSteps (a b c d : Fin 16) (f : Regs) : Regs :=
  let one := stage a b d 16 f
  let two := stage c d b 12 one
  let three := stage a b d 8 two
  stage c d b 7 three

/-- The eight quarter-rounds of a double-round (40 R104, R105). -/
def doubleRoundSteps (f : Regs) : Regs :=
  let one := quarterSteps 0 4 8 12 f
  let two := quarterSteps 1 5 9 13 one
  let three := quarterSteps 2 6 10 14 two
  let four := quarterSteps 3 7 11 15 three
  let five := quarterSteps 0 5 10 15 four
  let six := quarterSteps 1 6 11 12 five
  let seven := quarterSteps 2 7 8 13 six
  quarterSteps 3 4 9 14 seven

/-! ### The block function and the keystream (spec/41_block.md, spec/42_stream.md) -/

/-- The little-endian 32-bit word at address `a` (20_memory R62). -/
def wordAt (s : State) (a : Nat) : Word :=
  s.readByte (a + 3) ++ s.readByte (a + 2) ++ s.readByte (a + 1) ++ s.readByte a

/-- The initial state word by word, from the key and nonce buffers (41 R120, R121). -/
def initWords (s : State) (ctr : Word) : Regs := fun i =>
  if i.val = 0 then 0x61707865#32
  else if i.val = 1 then 0x3320646e#32
  else if i.val = 2 then 0x79622d32#32
  else if i.val = 3 then 0x6b206574#32
  else if i.val ≤ 11 then wordAt s (s.KEY_ADDR.toNat + 4 * (i.val - 4))
  else if i.val = 12 then ctr
  else wordAt s (s.NONCE_ADDR.toNat + 4 * (i.val - 13))

/-- The working state after n / 2 double-rounds (41 R122). -/
def mixedWords (s : State) (ctr : Word) (n : Nat) : Regs := doubleRoundSteps^[n / 2] (initWords s ctr)

/-- The output words (41 R122). -/
def outWords (s : State) (ctr : Word) (n : Nat) : Regs := fun i => initWords s ctr i + mixedWords s ctr n i

/-- Byte k of the 64 bytes of sixteen words (10_state R40). -/
def wordsByte (f : Regs) (k : Nat) : Byte := ((f (Fin.ofNat 16 (k / 4))) >>> (8 * (k % 4))).setWidth 8

/-- Byte j of the keystream that starts at counter `base`: byte j mod 64 of the block of counter
base + j div 64 mod 2^32 (42 R140, R142). -/
def streamByte (s : State) (base : Word) (n j : Nat) : Byte :=
  wordsByte (outWords s (base + BitVec.ofNat 32 (j / 64)) n) (j % 64)

/-- Byte j of the input buffer. -/
def inByte (s : State) (j : Nat) : Byte := s.readByte (s.IN_ADDR.toNat + j)

/-- Byte j of what SEAL makes of the input buffer, and OPEN too: base counter 0, 20 rounds (44 R193, R194). -/
def aeadByte (s : State) (j : Nat) : Byte := inByte s j ^^^ streamByte s 0#32 20 j

/-! ### The MAC (spec/43_poly1305.md) -/

/-- `le_int` of the n bytes f 0 .. f (n − 1) (00_scope R10). -/
def leNat (f : Nat → Byte) (n : Nat) : Nat := ∑ i ∈ Finset.range n, (f i).toNat * 256 ^ i

/-- The value of a block of k bytes (43 R166). -/
def blockNumber (f : Nat → Byte) (k : Nat) : Nat := leNat f k + if k < 16 then 2 ^ (8 * k) else 0

/-- The accumulator after the first k folds of a message of L bytes (43 R165, R168). -/
def accAfter (r acc : Nat) (f : Nat → Byte) (L : Nat) : Nat → Nat
  | 0 => acc
  | k + 1 =>
    (r * (accAfter r acc f L k + blockNumber (fun i => f (16 * k + i)) (min 16 (L - 16 * k)))) % (2 ^ 130 - 5)

/-- The finalised accumulator of a message of L bytes (43 R169, R177). -/
def finalAcc (r acc sec : Nat) (f : Nat → Byte) (L : Nat) : Nat :=
  (accAfter r acc f L ((L + 15) / 16) + sec) % (2 ^ 130 - 5)

/-- Byte i of the tag of a finalised accumulator (43 R170). -/
def tagByte (a i : Nat) : Byte := BitVec.ofNat 8 (a / 256 ^ i)

/-- The multiplier of the key buffer (43 R161). -/
def keyR (s : State) : Nat :=
  leNat (fun i => s.readByte (s.KEY_ADDR.toNat + i)) 16 &&& s.cfg.clampMask.toNat

/-- The secret of the key buffer (43 R162). -/
def keyS (s : State) : Nat := leNat (fun i => s.readByte (s.KEY_ADDR.toNat + 16 + i)) 16

/-- The finalised accumulator of `mac_fresh` over L bytes, with the key buffer's key (44 R191). -/
def freshAcc (s : State) (f : Nat → Byte) (L : Nat) : Nat := finalAcc (keyR s) 0 (keyS s) f L

/-- OPEN's supplied tag is the recomputed one in all 16 bytes (44 R195). -/
abbrev tagMatches (s : State) : Prop :=
  ∀ i, i < 16 → s.readByte (s.TAG_ADDR.toNat + i) = tagByte (freshAcc s (inByte s) s.IN_LEN.toNat) i

/-- The error code of OPEN (44_aead R194, R195). -/
def openErr (s : State) : BitVec 4 :=
  if s.KEY_LEN ≠ 32#32 then 1#4
  else if s.NONCE_LEN ≠ 12#32 then 2#4
  else if s.TAG_LEN ≠ 16#32 then 3#4
  else if ¬aeadFits s then 5#4
  else if tagMatches s then 0#4 else 4#4

/-- The error code of a command: that of the first check of its list that fails (60_exceptions R219). -/
def errOf (i : Instr) (s : State) : BitVec 4 :=
  match i with
  | .qr _ _ _ _ => 0#4
  | .dround => 0#4
  | .binit => binitErr s
  | .bfinal => 0#4
  | .block => blockErr s
  | .stream => streamErr s
  | .macKey => macKeyErr s
  | .macClear => 0#4
  | .macBlock => macBlockErr s
  | .macFinal => 0#4
  | .macTag => macTagErr s
  | .aeadSeal => sealErr s
  | .aeadOpen => openErr s

/-- SEAL or OPEN. -/
abbrev isAead (i : Instr) : Prop := i = .aeadSeal ∨ i = .aeadOpen

/-! ### MEM after a command -/

/-- What MEM reads as once the list of written bytes is `m`. -/
def readWith (s : State) (m : Memory) (a : Nat) : Byte := State.readByte { s with mem := m } a

/-- The address is one of the n bytes from `base` on. -/
abbrev inside (base n a : Nat) : Prop := base ≤ a ∧ a < base + n

/-! ### The MAC block by block (43 R180) -/

/-- The blocks of the input buffer as descriptors, in order (43 R165). -/
def blockDescriptors (a l : Word) : List (Word × Word) :=
  (List.range ((l.toNat + 15) / 16)).map fun k =>
    (a + BitVec.ofNat 32 (16 * k), BitVec.ofNat 32 (min 16 (l.toNat - 16 * k)))

/-- MAC_BLOCK over each block, IN_ADDR and IN_LEN set to it, then MAC_FINAL. -/
def macBlockwise : List (Word × Word) → State → Host.Outcome State Fault Refusal
  | [], u => exec .macFinal u
  | (a, l) :: rest, u => andThen (exec .macBlock { u with IN_ADDR := a, IN_LEN := l }) (macBlockwise rest)

/-! ### The host's accesses -/

/-- `s` with `access` the host's next access. -/
def next (s : State) (access : HostAccess) (rest : List HostAccess) : State :=
  { s with pending := access :: rest }

/-- `s` with `rest` the accesses still to come. -/
def after (s : State) (rest : List HostAccess) : State := { s with pending := rest }

/-- A host read of the register at `off` returns `v`, and that is all it does. -/
def readsAs (s : State) (off : Nat) (v : Word) : Prop :=
  ∀ rest, step (next s (.regRead off) rest) =
    .next { s with pending := rest, returned := s.returned ++ [.reg v] }

/-- A host write of `v` to the register at `off` leaves the core in `t`. -/
def writesTo (s : State) (off : Nat) (v : Word) (t : State) : Prop :=
  ∀ rest, step (next s (.regWrite off v) rest) = .next { t with pending := rest }

/-- Outside the accesses the spec admits (20_memory R70). -/
def outside (memSize : Nat) : HostAccess → Prop
  | .regWrite off _ => off % 4 ≠ 0 ∨ 0x1000 ≤ off
  | .regRead off => off % 4 ≠ 0 ∨ 0x1000 ≤ off
  | .regOddWidth _ _ => True
  | .memWrite a _ => memSize ≤ a
  | .memRead a => memSize ≤ a
  | .reset => False

/-- The offsets R44 lists as reserved. -/
abbrev reservedOffset (off : Nat) : Prop :=
  off % 4 = 0 ∧ (off = 0x038 ∨ off = 0x03C ∨ (0x134 ≤ off ∧ off ≤ 0x13C) ∨ (0x150 ≤ off ∧ off ≤ 0xFFC))

/-- The offsets of the read-only registers but STATUS (10_state R28): KS, R_W, S_W, ACC_W, TAG_W. -/
abbrev readOnlyOffset (off : Nat) : Prop :=
  off % 4 = 0 ∧ ((0x0C0 ≤ off ∧ off ≤ 0x130) ∨ (0x140 ≤ off ∧ off ≤ 0x14C))

/-- A word is illegal (30_encoding R86): an opcode that is not one of the 13, or a reserved bit set. -/
abbrev illegal (v : Word) : Prop :=
  v &&& 0xFF#32 ∉ ([0x01#32, 0x02#32, 0x03#32, 0x04#32, 0x05#32, 0x10#32, 0x20#32, 0x21#32, 0x22#32, 0x23#32,
      0x24#32, 0x30#32, 0x31#32] : List Word) ∨
    (v &&& 0xFF#32 = 0x01#32 ∧ v >>> 24 ≠ 0#32) ∨ (v &&& 0xFF#32 ≠ 0x01#32 ∧ v >>> 8 ≠ 0#32)

end Sys2Proof.Claims

open Sys2Proof Sys2Proof.Machine Sys2Proof.Claims

/-! ### Encoding -/

/-- Every command's word decodes to that command (30_encoding R81, R82, R84, R85). -/
def Obligations.DecodeOfEncode : Prop := ∀ i : Instr, decode (encode i) = .ok i

/-- A word that decodes to a command is that command's word: no two words stand for one command
(30_encoding R84, R85). -/
def Obligations.EncodeOfDecode : Prop := ∀ (v : Word) (i : Instr), decode v = .ok i → encode i = v

/-- R85: the rows of R84, their disjointness, and decoding by the one row that selects the word. -/
def Obligations.WordDecodesByItsOneRow : Prop :=
  opcodeTable.map (fun r => (r.mnemonic, r.pattern, r.mask)) =
      [ ("QR", 0x00000001#32, 0xFF0000FF#32), ("DROUND", 0x00000002#32, 0xFFFFFFFF#32),
        ("BINIT", 0x00000003#32, 0xFFFFFFFF#32), ("BFINAL", 0x00000004#32, 0xFFFFFFFF#32),
        ("BLOCK", 0x00000005#32, 0xFFFFFFFF#32), ("STREAM", 0x00000010#32, 0xFFFFFFFF#32),
        ("MAC_KEY", 0x00000020#32, 0xFFFFFFFF#32), ("MAC_CLEAR", 0x00000021#32, 0xFFFFFFFF#32),
        ("MAC_BLOCK", 0x00000022#32, 0xFFFFFFFF#32), ("MAC_FINAL", 0x00000023#32, 0xFFFFFFFF#32),
        ("MAC_TAG", 0x00000024#32, 0xFFFFFFFF#32), ("SEAL", 0x00000030#32, 0xFFFFFFFF#32),
        ("OPEN", 0x00000031#32, 0xFFFFFFFF#32) ] ∧
    (∀ (v : Word) (r₁ r₂ : OpcodeRow), r₁ ∈ opcodeTable → r₂ ∈ opcodeTable →
      v &&& r₁.mask = r₁.pattern → v &&& r₂.mask = r₂.pattern → r₁.mnemonic = r₂.mnemonic) ∧
    (∀ (v : Word) (r : OpcodeRow), r ∈ opcodeTable → v &&& r.mask = r.pattern →
      ∃ i, decode v = .ok i ∧ i.mnemonic = r.mnemonic) ∧
    (∀ v : Word, (∀ r ∈ opcodeTable, v &&& r.mask ≠ r.pattern) → ∃ e, decode v = .error e)

/-- R86: of the 2^32 words exactly 2^16 + 12 are legal. -/
def Obligations.LegalWordCount : Prop :=
  Set.ncard { v : Word | ∃ i, decode v = .ok i } = 2 ^ 16 + 12

/-- The words the spec writes out (30_encoding R88, R89; the words of STREAM, MAC_TAG, SEAL and OPEN in R84; that of
QR 0, 1, 2, 3 in 40 R102) decode to the commands it names. -/
def Obligations.SpecWordsDecode : Prop :=
  decode 0x00C84001#32 = .ok (.qr 0 4 8 12) ∧ decode 0x00CB6101#32 = .ok (.qr 1 6 11 12) ∧
    decode 0x00E94301#32 = .ok (.qr 3 4 9 14) ∧ decode 0x00321001#32 = .ok (.qr 0 1 2 3) ∧
    decode 0x00000002#32 = .ok .dround ∧ decode 0x00000005#32 = .ok .block ∧
    decode 0x00000010#32 = .ok .stream ∧ decode 0x00000024#32 = .ok .macTag ∧
    decode 0x00000030#32 = .ok .aeadSeal ∧ decode 0x00000031#32 = .ok .aeadOpen

/-! ### One step -/

/-- R217: a write of an illegal word to CMD (30_encoding R86) writes ERR and ERRSEEN, and nothing else
changes. -/
def Obligations.IllegalWordWritesOnlyStatus : Prop :=
  ∀ (s : State) (v : Word) (rest : List HostAccess), illegal v →
    step (next s (.regWrite 0x000 v) rest) = .next (failed (after s rest) 6#4)

/-- A write to CMD of a word that decodes to a command runs exactly that command (10_state R29,
20_memory R72) from the state without the access. -/
def Obligations.StepRunsDecodedCommand : Prop :=
  ∀ (s : State) (v : Word) (i : Instr) (rest : List HostAccess), decode v = .ok i →
    step (next s (.regWrite 0x000 v) rest) = exec i (after s rest)

/-- With no access to come a step changes nothing: the core is idle (70_reset R243, 60_exceptions R229).
That this is a step of the model is its own choice (log 6). -/
def Obligations.IdleStepChangesNothing : Prop := ∀ s : State, s.pending = [] → step s = .next s

/-- R38, with the same access to X (10_state R39): W[i] and X[i] at 0x040 + 4i and 0x080 + 4i, read and written whole;
a write changes that one word. -/
def Obligations.WorkingStateWindow : Prop :=
  ∀ (s : State) (i : Fin 16) (v : Word),
    readsAs s (0x040 + 4 * i.val) s.W[i] ∧ readsAs s (0x080 + 4 * i.val) s.X[i] ∧
    (∃ w : RegFile, writesTo s (0x040 + 4 * i.val) v { s with W := w } ∧
      ∀ k : Fin 16, w[k] = if k = i then v else s.W[k]) ∧
    (∃ x : RegFile, writesTo s (0x080 + 4 * i.val) v { s with X := x } ∧
      ∀ k : Fin 16, x[k] = if k = i then v else s.X[k])

/-- R40: KS[i] at 0x0C0 + 4i reads KS[i] and ignores writes; byte k of the block is its byte. -/
def Obligations.KeystreamWindow : Prop :=
  ∀ (s : State) (i : Fin 16) (v : Word),
    readsAs s (0x0C0 + 4 * i.val) s.KS[i] ∧ writesTo s (0x0C0 + 4 * i.val) v s ∧
    ∀ k, k < 64 → (ser s.KS)[k]? = some ((s.KS[Fin.ofNat 16 (k / 4)] >>> (8 * (k % 4)) &&& 0xff#32).setWidth 8)

/-- R41 to R43: the words of R, S, ACC and TAG, read-only; after MAC_KEY the words of R are the key's words
under the mask, and after MAC_TAG the words of TAG are the tag bytes' words. -/
def Obligations.MacRegisterWindow : Prop :=
  ∀ (s : State) (v : Word),
    (∀ j, j < 4 →
      readsAs s (0x100 + 4 * j) (BitVec.ofNat 32 (s.R.toNat / 2 ^ (32 * j))) ∧ writesTo s (0x100 + 4 * j) v s ∧
      readsAs s (0x110 + 4 * j) (BitVec.ofNat 32 (s.S.toNat / 2 ^ (32 * j))) ∧ writesTo s (0x110 + 4 * j) v s ∧
      readsAs s (0x120 + 4 * j) (BitVec.ofNat 32 (s.ACC.toNat / 2 ^ (32 * j))) ∧ writesTo s (0x120 + 4 * j) v s ∧
      readsAs s (0x140 + 4 * j) (BitVec.ofNat 32 (s.TAG.toNat / 2 ^ (32 * j))) ∧ writesTo s (0x140 + 4 * j) v s) ∧
    readsAs s 0x130 (BitVec.ofNat 32 (s.ACC.toNat / 2 ^ 128)) ∧ writesTo s 0x130 v s ∧
    (macKeyErr s = 0#4 → ∃ t, exec .macKey s = .next t ∧ ∀ j, j < 4 →
      readsAs t (0x100 + 4 * j)
        (wordAt s (s.KEY_ADDR.toNat + 4 * j) &&& BitVec.ofNat 32 (s.cfg.clampMask.toNat / 2 ^ (32 * j)))) ∧
    (macTagErr s = 0#4 → ∃ t, exec .macTag s = .next t ∧ ∀ j, j < 4 →
      readsAs t (0x140 + 4 * j) (wordAt t (s.TAG_ADDR.toNat + 4 * j)))

/-- R44 and R45: reserved offsets read 0; reserved offsets, read-only registers and the bits of STATUS and
ROUNDS that hold nothing ignore writes; those bits read 0. -/
def Obligations.ReservedAndReadOnlyIgnoreWrites : Prop :=
  ∀ (s : State) (v : Word),
    (∀ off, reservedOffset off → readsAs s off 0#32 ∧ writesTo s off v s) ∧
    (∀ off, readOnlyOffset off → writesTo s off v s) ∧
    (v.getLsbD 16 = false → writesTo s 0x004 v s) ∧
    (∃ w : Word, readsAs s 0x004 w ∧ ∀ k, (7 ≤ k ∧ k ≤ 15) ∨ 17 ≤ k → w.getLsbD k = false) ∧
    (∃ w : Word, readsAs s 0x008 w ∧ ∀ k, 8 ≤ k → w.getLsbD k = false) ∧
    writesTo s 0x008 v { s with ROUNDS := BitVec.ofNat 8 v.toNat }

/-- CMD reads 0; ROUNDS keeps bits [7:0]; BASE_CTR, BLK_IDX and the descriptor registers are read and
written whole, each at its offset (10_state R28, R29, R34 to R37). -/
def Obligations.ControlRegisterWindow : Prop :=
  ∀ (s : State) (v : Word),
    readsAs s 0x000 0#32 ∧
    readsAs s 0x008 (BitVec.ofNat 32 s.ROUNDS.toNat) ∧
    writesTo s 0x008 v { s with ROUNDS := BitVec.ofNat 8 v.toNat } ∧
    readsAs s 0x00C s.BASE_CTR ∧ writesTo s 0x00C v { s with BASE_CTR := v } ∧
    readsAs s 0x010 s.BLK_IDX ∧ writesTo s 0x010 v { s with BLK_IDX := v } ∧
    readsAs s 0x014 s.KEY_ADDR ∧ writesTo s 0x014 v { s with KEY_ADDR := v } ∧
    readsAs s 0x018 s.KEY_LEN ∧ writesTo s 0x018 v { s with KEY_LEN := v } ∧
    readsAs s 0x01C s.NONCE_ADDR ∧ writesTo s 0x01C v { s with NONCE_ADDR := v } ∧
    readsAs s 0x020 s.NONCE_LEN ∧ writesTo s 0x020 v { s with NONCE_LEN := v } ∧
    readsAs s 0x024 s.IN_ADDR ∧ writesTo s 0x024 v { s with IN_ADDR := v } ∧
    readsAs s 0x028 s.IN_LEN ∧ writesTo s 0x028 v { s with IN_LEN := v } ∧
    readsAs s 0x02C s.OUT_ADDR ∧ writesTo s 0x02C v { s with OUT_ADDR := v } ∧
    readsAs s 0x030 s.TAG_ADDR ∧ writesTo s 0x030 v { s with TAG_ADDR := v } ∧
    readsAs s 0x034 s.TAG_LEN ∧ writesTo s 0x034 v { s with TAG_LEN := v }

/-- The value of STATUS bit by bit, and that a host write affects bit 16 only (10_state R30). -/
def Obligations.StatusRegisterWindow : Prop :=
  ∀ (s : State) (v : Word),
    readsAs s 0x004 (BitVec.ofNat 32
      (s.status.err.toNat + 2 ^ 4 * s.status.phase.toNat + 2 ^ 16 * s.status.errSeen.toNat)) ∧
    writesTo s 0x004 v
      { s with status := { s.status with errSeen := if v.getLsbD 16 then false else s.status.errSeen } } ∧
    State.reset.status = { err := 0#4, phase := 0#3, errSeen := false }

/-- R33: ERRSEEN is set by every command, an illegal one too, that ends with ERR ≠ 0, cleared by none;
cleared by a host write with bit 16 set and by reset. -/
def Obligations.ErrSeenIsSticky : Prop :=
  (∀ (i : Instr) (s : State), ∃ t, exec i s = .next t ∧
    t.status.errSeen = if t.status.err = 0#4 then s.status.errSeen else true) ∧
  (∀ (s : State) (v : Word) (rest : List HostAccess), illegal v →
    ∃ t, step (next s (.regWrite 0x000 v) rest) = .next t ∧ t.status.errSeen = true) ∧
  (∀ (s : State) (v : Word), writesTo s 0x004 v
    { s with status := { s.status with errSeen := if v.getLsbD 16 then false else s.status.errSeen } }) ∧
  (∀ (s : State) (rest : List HostAccess),
    ∃ t, step (next s .reset rest) = .next t ∧ t.status.errSeen = false)

/-- R68: a host write of a byte below MEM_SIZE sets that byte and nothing else. -/
def Obligations.HostWriteSetsOneByte : Prop :=
  ∀ (s : State) (a : Nat) (b : Byte) (rest : List HostAccess), a < s.cfg.memSize →
    ∃ m : Memory, step (next s (.memWrite a b) rest) = .next { s with mem := m, pending := rest } ∧
      ∀ x, readWith s m x = if x = a then b else s.readByte x

/-- A host read of a byte below MEM_SIZE returns it and changes nothing else (20_memory R69). A byte
nothing has written reads as the model's free value (log 4), whatever that is. -/
def Obligations.HostReadReturnsByte : Prop :=
  ∀ (s : State) (a : Nat) (rest : List HostAccess), a < s.cfg.memSize →
    step (next s (.memRead a) rest) =
      .next { s with pending := rest, returned := s.returned ++ [.mem (s.readByte a)] }

/-- R70: an access outside the admitted set is refused, and every other one has a next state. -/
def Obligations.OutsideAccessIsRefused : Prop :=
  ∀ (s : State) (access : HostAccess) (rest : List HostAccess),
    (outside s.cfg.memSize access → ∃ r, step (next s access rest) = .refused r) ∧
    (¬outside s.cfg.memSize access → ∃ t, step (next s access rest) = .next t)

/-- Every admitted run ends (70_reset R252): as many steps as accesses, each with a next state, and none
left. -/
def Obligations.AdmittedRunEnds : Prop :=
  ∀ s : State, s.Admitted →
    ∃ t, Host.Core.run Sys2Proof.core s.pending.length s = .next t ∧ State.pending t = []

/-! ### Reset -/

/-- R241: every register after reset, in `State.reset` and after the platform asserts reset, which
leaves MEM as it is. -/
def Obligations.ResetSetsEveryRegister : Prop :=
  (∀ (s : State) (rest : List HostAccess), step (next s .reset rest) = .next
    { W := Vector.replicate 16 0#32, X := Vector.replicate 16 0#32, KS := Vector.replicate 16 0#32,
      R := 0#128, S := 0#128, ACC := 0#130, TAG := 0#128,
      status := { err := 0#4, phase := 0#3, errSeen := false },
      ROUNDS := 20#8, BASE_CTR := 0#32, BLK_IDX := 0#32, KEY_ADDR := 0#32, KEY_LEN := 0#32,
      NONCE_ADDR := 0#32, NONCE_LEN := 0#32, IN_ADDR := 0#32, IN_LEN := 0#32, OUT_ADDR := 0#32,
      TAG_ADDR := 0#32, TAG_LEN := 0#32, mem := s.mem, memSeed := s.memSeed, cfg := s.cfg,
      pending := rest, returned := s.returned }) ∧
  State.reset =
    { W := Vector.replicate 16 0#32, X := Vector.replicate 16 0#32, KS := Vector.replicate 16 0#32,
      R := 0#128, S := 0#128, ACC := 0#130, TAG := 0#128,
      status := { err := 0#4, phase := 0#3, errSeen := false },
      ROUNDS := 20#8, BASE_CTR := 0#32, BLK_IDX := 0#32, KEY_ADDR := 0#32, KEY_LEN := 0#32,
      NONCE_ADDR := 0#32, NONCE_LEN := 0#32, IN_ADDR := 0#32, IN_LEN := 0#32, OUT_ADDR := 0#32,
      TAG_ADDR := 0#32, TAG_LEN := 0#32, mem := State.reset.mem, memSeed := State.reset.memSeed,
      cfg := State.reset.cfg, pending := State.reset.pending, returned := State.reset.returned }

/-! ### Errors and whole-machine rules -/

/-- R219: a command raises the first of its checks that fails, or none, and always ends in a next state; an
illegal word raises IllegalCommand before anything else. -/
def Obligations.FirstFailedCheckIsRaised : Prop :=
  (∀ (i : Instr) (s : State), ∃ t, exec i s = .next t ∧ t.status.err = errOf i s) ∧
  (∀ (s : State) (v : Word) (rest : List HostAccess), illegal v →
    ∃ t, step (next s (.regWrite 0x000 v) rest) = .next t ∧ t.status.err = 6#4)

/-- R220: a command that raises an error changes STATUS only, and of it ERR, ERRSEEN and, for SEAL and OPEN,
PHASE. -/
def Obligations.FailedCommandChangesOnlyStatus : Prop :=
  ∀ (i : Instr) (s : State), errOf i s ≠ 0#4 →
    ∃ t, exec i s = .next t ∧ t = { s with status := t.status } ∧ t.status.err = errOf i s ∧
      t.status.errSeen = true ∧ (¬isAead i → t.status.phase = s.status.phase)

/-- R197: the phase SEAL and OPEN end in, and that no other command and no illegal word changes PHASE. -/
def Obligations.PhaseAtTheEndOfSealAndOpen : Prop :=
  (∀ (i : Instr) (s : State), isAead i → ∃ t, exec i s = .next t ∧
    t.status.phase = if errOf i s = 0#4 then 4#3 else if errOf i s = 4#4 then 2#3 else 1#3) ∧
  (∀ (i : Instr) (s : State), ¬isAead i → ∃ t, exec i s = .next t ∧ t.status.phase = s.status.phase) ∧
  (∀ (s : State) (v : Word) (rest : List HostAccess), illegal v →
    ∃ t, step (next s (.regWrite 0x000 v) rest) = .next t ∧ t.status.phase = s.status.phase)

/-- Which commands may write each register and MEM (10_state R20 to R27, R34 to R37): no other command
changes it. -/
def Obligations.OnlyTheNamedCommandsWrite : Prop :=
  ∀ (i : Instr) (s : State), ∃ t, exec i s = .next t ∧
    (t.W = s.W ∨ (∃ a b c d, i = .qr a b c d) ∨ i = .dround ∨ i = .binit ∨ i = .block) ∧
    (t.X = s.X ∨ i = .binit ∨ i = .block) ∧
    (t.KS = s.KS ∨ i = .bfinal ∨ i = .block) ∧
    (t.R = s.R ∨ i = .macKey) ∧ (t.S = s.S ∨ i = .macKey) ∧
    (t.ACC = s.ACC ∨ i = .macKey ∨ i = .macClear ∨ i = .macBlock ∨ i = .macFinal ∨ i = .macTag) ∧
    (t.TAG = s.TAG ∨ i = .macFinal ∨ i = .macTag) ∧
    (t.mem = s.mem ∨ i = .stream ∨ i = .macTag ∨ i = .aeadSeal ∨ i = .aeadOpen) ∧
    t.ROUNDS = s.ROUNDS ∧ t.BASE_CTR = s.BASE_CTR ∧ t.BLK_IDX = s.BLK_IDX ∧
    t.KEY_ADDR = s.KEY_ADDR ∧ t.KEY_LEN = s.KEY_LEN ∧ t.NONCE_ADDR = s.NONCE_ADDR ∧
    t.NONCE_LEN = s.NONCE_LEN ∧ t.IN_ADDR = s.IN_ADDR ∧ t.IN_LEN = s.IN_LEN ∧ t.OUT_ADDR = s.OUT_ADDR ∧
    t.TAG_ADDR = s.TAG_ADDR ∧ t.TAG_LEN = s.TAG_LEN ∧
    t.memSeed = s.memSeed ∧ t.cfg = s.cfg ∧ t.pending = s.pending ∧ t.returned = s.returned

/-- CLAMP_MASK and MEM_SIZE are never written, by a command, an access or a reset (10_state R48), nor is
the model's own name of MEM's power-on contents (log 5). -/
def Obligations.ParametersNeverChange : Prop :=
  ∀ s t : State, step s = .next t → t.cfg = s.cfg ∧ t.memSeed = s.memSeed

/-! ### The quarter-round pipeline -/

/-- R102 and R103: QR's word, and its twelve operations on the one register file for any four indices;
nothing else changes but ERR <- 0. -/
def Obligations.QuarterRoundIsTwelveOperations : Prop :=
  ∀ (a b c d : Fin 16) (s : State),
    encode (.qr a b c d) = 0x01#32 ||| BitVec.ofNat 32 a.val <<< 8 ||| BitVec.ofNat 32 b.val <<< 12
      ||| BitVec.ofNat 32 c.val <<< 16 ||| BitVec.ofNat 32 d.val <<< 20 ∧
    ∃ w : RegFile, exec (.qr a b c d) s = .next { s with W := w, status := okStatus s } ∧
      ∀ i : Fin 16, w[i] = quarterSteps a b c d (regs s.W) i

/-- R105: DROUND is the eight quarter-rounds of R104 in order; nothing else changes but ERR <- 0. -/
def Obligations.DoubleRoundIsEightQuarterRounds : Prop :=
  ∀ s : State, encode .dround = 0x00000002#32 ∧
    ∃ w : RegFile, exec .dround s = .next { s with W := w, status := okStatus s } ∧
      ∀ i : Fin 16, w[i] = doubleRoundSteps (regs s.W) i

/-- The spec's inference 40 R106: DROUND does to the whole state what CROUND then DIAGROUND do; the column steps commute with each
other, so do the diagonal steps, and for each column step and each diagonal step there is a state on which the two
do not commute. -/
def Obligations.DoubleRoundIsColumnThenDiagonal : Prop :=
  (∀ s : State, runCommands (Pseudo.cround.expand ++ Pseudo.diaground.expand) s = exec .dround s) ∧
  (∀ (s : State) (l : List Instr), l.Perm Pseudo.cround.expand →
    runCommands l s = runCommands Pseudo.cround.expand s) ∧
  (∀ (s : State) (l : List Instr), l.Perm Pseudo.diaground.expand →
    runCommands l s = runCommands Pseudo.diaground.expand s) ∧
  (∀ p ∈ Pseudo.cround.expand, ∀ q ∈ Pseudo.diaground.expand,
    ∃ s : State, runCommands [p, q] s ≠ runCommands [q, p] s)

/-- The spec's inference 40 R107: QR on four distinct indices, and DROUND, are bijections of W, and QR leaves the other twelve
registers as they are. -/
def Obligations.QuarterRoundIsBijective : Prop :=
  (∀ (a b c d : Fin 16), [a, b, c, d].Nodup → ∀ (s : State) (target : RegFile),
    ∃! w : RegFile, ∃ t, exec (.qr a b c d) { s with W := w } = .next t ∧ t.W = target) ∧
  (∀ (a b c d : Fin 16) (s : State), ∃ t, exec (.qr a b c d) s = .next t ∧
    ∀ i : Fin 16, i ∉ [a, b, c, d] → t.W[i] = s.W[i]) ∧
  (∀ (s : State) (target : RegFile),
    ∃! w : RegFile, ∃ t, exec .dround { s with W := w } = .next t ∧ t.W = target)

/-! ### The block function engine -/

/-- R124: BINIT's checks and what it builds; nothing else changes. -/
def Obligations.BinitBuildsInitialState : Prop :=
  ∀ s : State, encode .binit = 0x00000003#32 ∧
    (binitErr s ≠ 0#4 → exec .binit s = .next (failed s (binitErr s))) ∧
    (binitErr s = 0#4 → ∃ x : RegFile,
      exec .binit s = .next { s with X := x, W := x, status := okStatus s } ∧
      ∀ i : Fin 16, x[i] = initWords s (s.BASE_CTR + s.BLK_IDX) i)

/-- R125: BFINAL's sums; nothing else changes, so a second BFINAL leaves the same KS. -/
def Obligations.BfinalAddsIntoKeystream : Prop :=
  ∀ s : State, encode .bfinal = 0x00000004#32 ∧
    ∃ ks : RegFile, exec .bfinal s = .next { s with KS := ks, status := okStatus s } ∧
      (∀ i : Fin 16, ks[i] = s.X[i] + s.W[i]) ∧
      exec .bfinal { s with KS := ks, status := okStatus s } =
        .next { s with KS := ks, status := okStatus s }

/-- R127: BLOCK's checks and its three results; nothing else changes. -/
def Obligations.BlockComputesKeystreamBlock : Prop :=
  ∀ s : State, encode .block = 0x00000005#32 ∧
    (blockErr s ≠ 0#4 → exec .block s = .next (failed s (blockErr s))) ∧
    (blockErr s = 0#4 → ∃ x w ks : RegFile,
      exec .block s = .next { s with X := x, W := w, KS := ks, status := okStatus s } ∧
      ∀ i : Fin 16, x[i] = initWords s (s.BASE_CTR + s.BLK_IDX) i ∧
        w[i] = mixedWords s (s.BASE_CTR + s.BLK_IDX) s.ROUNDS.toNat i ∧
        ks[i] = outWords s (s.BASE_CTR + s.BLK_IDX) s.ROUNDS.toNat i)

/-- The spec's inference 41 R131: with ROUNDS = 2m and no error BLOCKSTEPS m leaves the whole state as BLOCK does; with an illegal
ROUNDS it succeeds where BLOCK raises InvalidRounds. -/
def Obligations.BlockStepsEqualBlock : Prop :=
  (∀ (s : State) (m : Nat), 1 ≤ m → m ≤ 127 → s.ROUNDS = BitVec.ofNat 8 (2 * m) → blockErr s = 0#4 →
    runCommands (Pseudo.blocksteps m).expand s = exec .block s) ∧
  (∀ (s : State) (m : Nat), blockErr s = 7#4 → binitErr s = 0#4 →
    (∃ t, runCommands (Pseudo.blocksteps m).expand s = .next t ∧ t.status.err = 0#4) ∧
    exec .block s = .next (failed s 7#4))

/-! ### The keystream generator -/

/-- R143: STREAM's checks, and every byte of MEM after it: the output bytes are the input bytes as they
stood, XORed with the keystream; nothing else changes. -/
def Obligations.StreamXorsKeystream : Prop :=
  ∀ s : State, encode .stream = 0x00000010#32 ∧
    (streamErr s ≠ 0#4 → exec .stream s = .next (failed s (streamErr s))) ∧
    (streamErr s = 0#4 → ∃ m : Memory,
      exec .stream s = .next { s with mem := m, status := okStatus s } ∧
      ∀ a, readWith s m a =
        if inside s.OUT_ADDR.toNat s.IN_LEN.toNat a then
          inByte s (a - s.OUT_ADDR.toNat) ^^^
            streamByte s s.BASE_CTR s.ROUNDS.toNat (a - s.OUT_ADDR.toNat)
        else s.readByte a)

/-- The spec's inference 42 R144: the keystream transform is its own inverse and keeps the length. -/
def Obligations.StreamIsSelfInverse : Prop :=
  ∀ (key nonce : List Byte) (base : Word) (n : Nat) (m : List Byte),
    xorStream key nonce base n (xorStream key nonce base n m) = m ∧
      (xorStream key nonce base n m).length = m.length

/-- STREAM neither reads nor writes W, X, KS, R, S, ACC, TAG or BLK_IDX (42_stream R145, 10_state R36):
with other values in them it does the same and leaves those. -/
def Obligations.StreamKeepsNoState : Prop :=
  ∀ (s : State) (w x ks : RegFile) (r sec tag : BitVec 128) (acc : BitVec 130) (k : Word),
    ∃ t, exec .stream s = .next t ∧
      exec .stream
          { s with W := w, X := x, KS := ks, R := r, S := sec, ACC := acc, TAG := tag, BLK_IDX := k } =
        .next { t with W := w, X := x, KS := ks, R := r, S := sec, ACC := acc, TAG := tag, BLK_IDX := k }

/-! ### The MAC engine -/

/-- R173: MAC_KEY's checks and what it writes; nothing else changes. -/
def Obligations.MacKeyLoadsKey : Prop :=
  ∀ s : State, encode .macKey = 0x00000020#32 ∧
    (macKeyErr s ≠ 0#4 → exec .macKey s = .next (failed s (macKeyErr s))) ∧
    (macKeyErr s = 0#4 → exec .macKey s = .next
      { s with R := BitVec.ofNat 128 (keyR s), S := BitVec.ofNat 128 (keyS s), ACC := 0#130,
               status := okStatus s })

/-- R174: MAC_CLEAR zeroes ACC; nothing else changes but ERR <- 0. -/
def Obligations.MacClearZeroesAccumulator : Prop :=
  ∀ s : State, encode .macClear = 0x00000021#32 ∧
    exec .macClear s = .next { s with ACC := 0#130, status := okStatus s }

/-- R175: MAC_BLOCK's checks and its fold of one block; nothing else changes. -/
def Obligations.MacBlockFoldsOneBlock : Prop :=
  ∀ s : State, encode .macBlock = 0x00000022#32 ∧
    (macBlockErr s ≠ 0#4 → exec .macBlock s = .next (failed s (macBlockErr s))) ∧
    (macBlockErr s = 0#4 → exec .macBlock s = .next
      { s with
        ACC := BitVec.ofNat 130
          ((s.R.toNat * (s.ACC.toNat + blockNumber (inByte s) s.IN_LEN.toNat)) % (2 ^ 130 - 5))
        status := okStatus s })

/-- R176: MAC_FINAL adds S mod P and keeps the tag; nothing else changes but ERR <- 0. -/
def Obligations.MacFinalAddsSecret : Prop :=
  ∀ s : State, encode .macFinal = 0x00000023#32 ∧
    exec .macFinal s = .next
      { s with
        ACC := BitVec.ofNat 130 ((s.ACC.toNat + s.S.toNat) % (2 ^ 130 - 5))
        TAG := BitVec.ofNat 128 ((s.ACC.toNat + s.S.toNat) % (2 ^ 130 - 5))
        status := okStatus s }

/-- R177: MAC_TAG's checks, ACC and TAG, and every byte of MEM after it; nothing else changes. -/
def Obligations.MacTagFoldsWholeMessage : Prop :=
  ∀ s : State, encode .macTag = 0x00000024#32 ∧
    (macTagErr s ≠ 0#4 → exec .macTag s = .next (failed s (macTagErr s))) ∧
    (macTagErr s = 0#4 → ∃ (a : Nat) (m : Memory),
      a = finalAcc s.R.toNat s.ACC.toNat s.S.toNat (inByte s) s.IN_LEN.toNat ∧
      exec .macTag s = .next
        { s with ACC := BitVec.ofNat 130 a, TAG := BitVec.ofNat 128 a, mem := m, status := okStatus s } ∧
      ∀ x, readWith s m x =
        if inside s.TAG_ADDR.toNat 16 x then tagByte a (x - s.TAG_ADDR.toNat) else s.readByte x)

/-- The spec's inference 43 R180: MAC_BLOCK over the blocks of a message and then MAC_FINAL leave ACC and TAG as MAC_TAG over the
message does; MAC_TAG also writes the 16 tag bytes. The parameters are admitted (00_scope R6). -/
def Obligations.BlockwiseMacEqualsMacTag : Prop :=
  ∀ s : State, s.cfg.wf = true → macTagErr s = 0#4 →
    ∃ t u : State, macBlockwise (blockDescriptors s.IN_ADDR s.IN_LEN) s = .next t ∧
      exec .macTag s = .next u ∧ t.ACC = u.ACC ∧ t.TAG = u.TAG ∧
      t.status.err = 0#4 ∧ u.status.err = 0#4 ∧ t.mem = s.mem ∧
      ∀ x, u.readByte x =
        if inside s.TAG_ADDR.toNat 16 x then tagByte u.TAG.toNat (x - s.TAG_ADDR.toNat) else s.readByte x

/-- The spec's inference 43 R179: from ACC = 0 the tag of the empty message, and of any message of 16-byte blocks of zeros, is S. -/
def Obligations.EmptyAndZeroMessagesTagAsSecret : Prop :=
  ∀ s : State, macTagErr s = 0#4 → s.ACC = 0#130 → s.IN_LEN.toNat % 16 = 0 →
    (∀ j, j < s.IN_LEN.toNat → inByte s j = 0#8) →
    ∃ t, exec .macTag s = .next t ∧ t.TAG = s.S ∧
      ∀ i, i < 16 → t.readByte (s.TAG_ADDR.toNat + i) = tagByte s.S.toNat i

/-- The reuse hazard exists (43_poly1305 R178): two MAC_TAGs of one message with nothing between them can
give different tags. -/
def Obligations.SecondTagCanDiffer : Prop :=
  ∃ s t u : State, exec .macTag s = .next t ∧ exec .macTag t = .next u ∧ t.status.err = 0#4 ∧
    u.status.err = 0#4 ∧ t.input = s.input ∧ t.TAG ≠ u.TAG

/-! ### The AEAD orchestrator -/

/-- R193: SEAL's checks, and every byte of MEM after it: the tag of the computed ciphertext over the
ciphertext; nothing else changes but ERR and PHASE. -/
def Obligations.SealEncryptsAndTags : Prop :=
  ∀ s : State, encode .aeadSeal = 0x00000030#32 ∧
    (sealErr s ≠ 0#4 → exec .aeadSeal s = .next (aeadFailed s (sealErr s) 1#3)) ∧
    (sealErr s = 0#4 → ∃ m : Memory,
      exec .aeadSeal s = .next { s with mem := m, status := doneStatus s } ∧
      ∀ a, readWith s m a =
        if inside s.TAG_ADDR.toNat 16 a then
          tagByte (freshAcc s (aeadByte s) s.IN_LEN.toNat) (a - s.TAG_ADDR.toNat)
        else if inside s.OUT_ADDR.toNat s.IN_LEN.toNat a then aeadByte s (a - s.OUT_ADDR.toNat)
        else s.readByte a)

/-- R194 and R195: OPEN's checks, the tag's comparison among them, and every byte of MEM after it; nothing
else changes but ERR and PHASE. -/
def Obligations.OpenVerifiesThenDecrypts : Prop :=
  ∀ s : State, encode .aeadOpen = 0x00000031#32 ∧
    (openErr s ≠ 0#4 →
      exec .aeadOpen s = .next (aeadFailed s (openErr s) (if openErr s = 4#4 then 2#3 else 1#3))) ∧
    (openErr s = 0#4 → ∃ m : Memory,
      exec .aeadOpen s = .next { s with mem := m, status := doneStatus s } ∧
      ∀ a, readWith s m a =
        if inside s.OUT_ADDR.toNat s.IN_LEN.toNat a then aeadByte s (a - s.OUT_ADDR.toNat)
        else s.readByte a)

/-- The spec's inference 44_aead R198: what SEAL leaves, OPEN opens. `s` is where SEAL runs, `t` where it ends, `u`
any state with the same key and nonce bytes, the ciphertext and the tag in its own buffers; OPEN completes there and
writes the plaintext. The ciphertext is what SEAL left in its output buffer; a byte of it that the tag then
overwrote (20_memory R73) is the one SEAL computed. -/
def Obligations.SealThenOpenRestoresPlaintext : Prop :=
  ∀ s t u : State, exec .aeadSeal s = .next t → sealErr s = 0#4 →
    u.cfg = s.cfg → u.KEY_LEN = 32#32 → u.NONCE_LEN = 12#32 → u.TAG_LEN = 16#32 → u.IN_LEN = s.IN_LEN →
    aeadFits u →
    (∀ i, i < 32 → u.readByte (u.KEY_ADDR.toNat + i) = s.readByte (s.KEY_ADDR.toNat + i)) →
    (∀ i, i < 12 → u.readByte (u.NONCE_ADDR.toNat + i) = s.readByte (s.NONCE_ADDR.toNat + i)) →
    (∀ j, j < s.IN_LEN.toNat → some (inByte u j) =
      if inside s.TAG_ADDR.toNat 16 (s.OUT_ADDR.toNat + j) then s.sealed[j]?
      else some (t.readByte (s.OUT_ADDR.toNat + j))) →
    (∀ i, i < 16 → u.readByte (u.TAG_ADDR.toNat + i) = t.readByte (s.TAG_ADDR.toNat + i)) →
    ∃ v, exec .aeadOpen u = .next v ∧ v.status.err = 0#4 ∧ v.status.phase = 4#3 ∧
      ∀ j, j < s.IN_LEN.toNat → v.readByte (u.OUT_ADDR.toNat + j) = inByte s j

/-- R196: SEAL and OPEN neither read nor write W, X, KS, R, S, ACC or TAG and do not read ROUNDS, BASE_CTR
or BLK_IDX: with other values in them they do the same and leave those. -/
def Obligations.SealAndOpenUsePrivateEngines : Prop :=
  ∀ (i : Instr) (s : State) (w x ks : RegFile) (r sec tag : BitVec 128) (acc : BitVec 130)
    (n : BitVec 8) (b k : Word), isAead i →
    ∃ t, exec i s = .next t ∧
      exec i
          { s with W := w, X := x, KS := ks, R := r, S := sec, ACC := acc, TAG := tag, ROUNDS := n,
                   BASE_CTR := b, BLK_IDX := k } =
        .next { t with W := w, X := x, KS := ks, R := r, S := sec, ACC := acc, TAG := tag, ROUNDS := n,
                       BASE_CTR := b, BLK_IDX := k }

/-- The fresh tag of SEAL and OPEN is the tag MAC_KEY and then MAC_TAG give for the same key and message
(the spec's inference in 44_aead R191). -/
def Obligations.FreshTagIsKeyThenTag : Prop :=
  ∀ s : State, macKeyErr s = 0#4 → macTagErr s = 0#4 →
    ∃ t, runCommands [.macKey, .macTag] s = .next t ∧ t.status.err = 0#4 ∧
      ∀ i, i < 16 → some (t.readByte (s.TAG_ADDR.toNat + i)) = (macFresh s.cfg.clampMask s.key s.input)[i]?

/-- Tag equality does not imply ciphertext equality (the spec's inference 44_aead R199): 16 zero bytes before a ciphertext leave
its tag, for every key. -/
def Obligations.ZeroBlockPrefixKeepsTag : Prop :=
  ∀ (mask : BitVec 128) (key c : List Byte),
    macFresh mask key (List.replicate 16 0#8 ++ c) = macFresh mask key c

/-! ### The invariant -/

/-- Every step keeps the invariant: admitted parameters, MEM canonical and within MEM_SIZE, ACC < P
(the spec's inference 43_poly1305 R171), R under CLAMP_MASK (10_state R24), legal ERR and PHASE (93 I11). -/
def Obligations.EveryStepKeepsInvariant : Prop :=
  ∀ s t : State, s.Inv → step s = .next t → t.Inv

/-- The state after reset meets the invariant. -/
def Obligations.ResetMeetsInvariant : Prop := State.reset.Inv

/-- The step of an admitted run (70_reset R252, 20_memory R72): from every state whose accesses to come are all
admitted, one at least, the step has a next state, it uses up the first access alone, and the rest stay admitted. -/
def Obligations.AdmittedStepUsesOneAccess : Prop :=
  ∀ (s : State) (access : HostAccess) (rest : List HostAccess), s.pending = access :: rest → s.Admitted →
    ∃ t, step s = .next t ∧ t.pending = rest ∧ t.Admitted
end

