-- ==== Sys2Proof/Laws/Bytes.lean ====
section
/-! SUPPORT. The laws of byte sequences: lengths, indexing, and the lengths of what the engines produce. -/

namespace Sys2Proof.Machine

@[simp] theorem bytesLE_length (n v : Nat) : (bytesLE n v).length = n := by
  induction n generalizing v with
  | zero => rfl
  | succ n ih => simp [bytesLE, ih]

/-- Byte i of `bytes_le(n, v)` (00_scope R10). -/
theorem bytesLE_getElem (n : Nat) : ∀ (v i : Nat) (h : i < (bytesLE n v).length),
    (bytesLE n v)[i] = BitVec.ofNat 8 (v / 256 ^ i) := by
  induction n with
  | zero => intro v i h; simp [bytesLE] at h
  | succ n ih =>
    intro v i h
    cases i with
    | zero => simp [bytesLE]
    | succ i =>
      simp only [bytesLE, List.getElem_cons_succ, ih]
      rw [Nat.div_div_eq_div_mul, pow_succ, Nat.mul_comm]

/-- `le_int` of n bytes is below 256^n. -/
theorem leInt_lt (b : List Byte) : leInt b < 256 ^ b.length := by
  induction b with
  | nil => simp [leInt]
  | cons x b ih =>
    simp only [leInt, List.length_cons, pow_succ]
    have := x.isLt
    omega

/-- `le_int` of a concatenation. -/
theorem leInt_append (b c : List Byte) : leInt (b ++ c) = leInt b + 256 ^ b.length * leInt c := by
  induction b with
  | nil => simp [leInt]
  | cons x b ih => simp only [List.cons_append, leInt, ih, List.length_cons, pow_succ]; ring

/-- `le_int` of zero bytes is 0. -/
theorem leInt_replicate_zero (n : Nat) : leInt (List.replicate n 0#8) = 0 := by
  induction n with
  | zero => rfl
  | succ n ih => simp [List.replicate_succ, leInt, ih]

/-- `ser` gives 64 bytes. -/
@[simp] theorem ser_length (w : RegFile) : (ser w).length = 64 := by
  simp [ser, List.length_flatMap]

@[simp] theorem keyStream_length (key nonce : List Byte) (ctr : Word) (n : Nat) :
    (keyStream key nonce ctr n).length = 64 := ser_length _

@[simp] theorem tagBytes_length (a : Nat) : (tagBytes a).length = 16 := bytesLE_length 16 _

@[simp] theorem macFresh_length (mask : BitVec 128) (key m : List Byte) :
    (macFresh mask key m).length = 16 := tagBytes_length _

/-- The first piece of a message, and the pieces of the rest. -/
theorem pieces_cons (n : Nat) (hn : 0 < n) (m : List Byte) (hm : m ≠ []) :
    pieces n m = m.take n :: pieces n (m.drop n) := by
  have hpos : 0 < m.length := List.length_pos_iff.2 hm
  have hcount : (m.length + (n - 1)) / n = ((m.drop n).length + (n - 1)) / n + 1 := by
    rw [List.length_drop]
    by_cases h : n ≤ m.length
    · rw [show m.length + (n - 1) = (m.length - n + (n - 1)) + n by omega, Nat.add_div_right _ hn]
    · rw [show m.length - n = 0 by omega, Nat.zero_add, Nat.div_eq_of_lt (show n - 1 < n by omega)]
      rw [show m.length + (n - 1) = (m.length - 1) + n by omega, Nat.add_div_right _ hn,
        Nat.div_eq_of_lt (show m.length - 1 < n by omega)]
  simp only [pieces, hcount, List.range_succ_eq_map, List.map_cons, List.map_map, Nat.mul_zero,
    List.drop_zero]
  congr 1
  apply List.map_congr_left
  intro i _
  simp only [Function.comp, List.drop_drop, Nat.succ_eq_add_one]
  rw [show n * (i + 1) = n + n * i by ring]

@[simp] theorem pieces_nil (n : Nat) (hn : 0 < n) : pieces n [] = [] := by
  simp only [pieces, List.length_nil, Nat.zero_add]
  rw [Nat.div_eq_of_lt (by omega)]
  rfl

/-- An XOR with a keystream at least as long keeps the chunk's length. -/
theorem xorBytes_length (chunk ks : List Byte) (h : chunk.length ≤ ks.length) :
    (xorBytes chunk ks).length = chunk.length := by
  simp [xorBytes, h]

/-- `xor_stream` of an empty message. -/
@[simp] theorem xorStream_nil (key nonce : List Byte) (base : Word) (n : Nat) :
    xorStream key nonce base n [] = [] := by
  simp [xorStream, xorChunks]

/-- `xor_stream` chunk by chunk (42_stream R142). -/
theorem xorStream_step (key nonce : List Byte) (base : Word) (n : Nat) (m : List Byte) (hm : m ≠ []) :
    xorStream key nonce base n m =
      xorBytes (m.take 64) (keyStream key nonce base n) ++
        xorStream key nonce (base + 1#32) n (m.drop 64) := by
  simp only [xorStream, pieces_cons 64 (by omega) m hm, xorChunks]

/-- Induction over a message 64 bytes at a time, or n. -/
theorem message_induction (n : Nat) (hn : 0 < n) {motive : List Byte → Prop} (nil : motive [])
    (step : ∀ m, m ≠ [] → motive (m.drop n) → motive m) (m : List Byte) : motive m := by
  induction h : m.length using Nat.strong_induction_on generalizing m with
  | _ k ih =>
    by_cases hm : m = []
    · exact hm ▸ nil
    · refine step m hm (ih _ ?_ _ rfl)
      have := List.length_pos_iff.2 hm
      rw [List.length_drop]; omega

/-- `xor_stream` keeps the length (42_stream R142). -/
@[simp] theorem xorStream_length (key nonce : List Byte) (base : Word) (n : Nat) (m : List Byte) :
    (xorStream key nonce base n m).length = m.length := by
  induction m using message_induction 64 (by omega) generalizing base with
  | nil => simp
  | step m hm ih =>
    rw [xorStream_step _ _ _ _ _ hm, List.length_append, ih, xorBytes_length _ _ (by simp)]
    simp only [List.length_take, List.length_drop]; omega

/-- The fold of a message block by block (43_poly1305 R177). -/
theorem foldMessage_step (r acc : Nat) (m : List Byte) (hm : m ≠ []) :
    foldMessage r acc m = foldMessage r (fold r acc (m.take 16)) (m.drop 16) := by
  simp only [foldMessage, pieces_cons 16 (by omega) m hm, List.foldl_cons]

@[simp] theorem foldMessage_nil (r acc : Nat) : foldMessage r acc [] = acc := by
  simp [foldMessage]

theorem P_pos : 0 < P := by decide

theorem mulmod_lt (r h : Nat) : mulmod r h < P := Nat.mod_lt _ P_pos

theorem final_lt (acc s : Nat) : final acc s < P := Nat.mod_lt _ P_pos

/-- P fits the accumulator's 130 bits (43_poly1305 R171). -/
theorem P_lt : P < 2 ^ 130 := by decide

/-- The block value of a short block is its integer plus the marker (43_poly1305 R166). -/
theorem blockval_short (b : List Byte) (h : b.length < 16) : blockval b = leInt b + 256 ^ b.length := by
  rw [blockval, if_neg (by omega), List.append_assoc, leInt_append, leInt_append, leInt_replicate_zero]
  simp [leInt]

/-- The block value of a full block is its integer (43_poly1305 R166). -/
theorem blockval_full (b : List Byte) (h : b.length = 16) : blockval b = leInt b := by
  rw [blockval, if_pos h]

end Sys2Proof.Machine
end

