-- ==== Sys2Proof/Laws/State.lean ====
section
/-! SUPPORT. One lemma per field of State per named update, and per field of Status per update of it: each true
by definition. `(rfl)` keeps simp from using them as definitional unfoldings, so that a rewritten condition
gets its own decision procedure. -/

namespace Sys2Proof.Machine

@[simp] theorem Status.completed_err (st : Status) : (st.completed).err = 0#4 := (rfl)
@[simp] theorem Status.completed_phase (st : Status) : (st.completed).phase = st.phase := (rfl)
@[simp] theorem Status.completed_errSeen (st : Status) : (st.completed).errSeen = st.errSeen := (rfl)

@[simp] theorem Status.raised_err (st : Status) (e : ErrorKind) : (st.raised e).err = e.code := (rfl)
@[simp] theorem Status.raised_phase (st : Status) (e : ErrorKind) : (st.raised e).phase = st.phase := (rfl)
@[simp] theorem Status.raised_errSeen (st : Status) (e : ErrorKind) : (st.raised e).errSeen = true := (rfl)

@[simp] theorem Status.withPhase_err (st : Status) (p : Phase) : (st.withPhase p).err = st.err := (rfl)
@[simp] theorem Status.withPhase_phase (st : Status) (p : Phase) : (st.withPhase p).phase = p.code := (rfl)
@[simp] theorem Status.withPhase_errSeen (st : Status) (p : Phase) : (st.withPhase p).errSeen = st.errSeen := (rfl)

@[simp] theorem Status.hostWrite_err (st : Status) (v : Word) : (st.hostWrite v).err = st.err := (rfl)
@[simp] theorem Status.hostWrite_phase (st : Status) (v : Word) : (st.hostWrite v).phase = st.phase := (rfl)
@[simp] theorem Status.hostWrite_errSeen (st : Status) (v : Word) : (st.hostWrite v).errSeen = (st.errSeen && !v.getLsbD 16) := (rfl)

@[simp] theorem State.writeBytes_W (s : State) (a : Nat) (bs : List Byte) : (s.writeBytes a bs).W = s.W := (rfl)
@[simp] theorem State.writeBytes_X (s : State) (a : Nat) (bs : List Byte) : (s.writeBytes a bs).X = s.X := (rfl)
@[simp] theorem State.writeBytes_KS (s : State) (a : Nat) (bs : List Byte) : (s.writeBytes a bs).KS = s.KS := (rfl)
@[simp] theorem State.writeBytes_R (s : State) (a : Nat) (bs : List Byte) : (s.writeBytes a bs).R = s.R := (rfl)
@[simp] theorem State.writeBytes_S (s : State) (a : Nat) (bs : List Byte) : (s.writeBytes a bs).S = s.S := (rfl)
@[simp] theorem State.writeBytes_ACC (s : State) (a : Nat) (bs : List Byte) : (s.writeBytes a bs).ACC = s.ACC := (rfl)
@[simp] theorem State.writeBytes_TAG (s : State) (a : Nat) (bs : List Byte) : (s.writeBytes a bs).TAG = s.TAG := (rfl)
@[simp] theorem State.writeBytes_status (s : State) (a : Nat) (bs : List Byte) : (s.writeBytes a bs).status = s.status := (rfl)
@[simp] theorem State.writeBytes_ROUNDS (s : State) (a : Nat) (bs : List Byte) : (s.writeBytes a bs).ROUNDS = s.ROUNDS := (rfl)
@[simp] theorem State.writeBytes_BASE_CTR (s : State) (a : Nat) (bs : List Byte) : (s.writeBytes a bs).BASE_CTR = s.BASE_CTR := (rfl)
@[simp] theorem State.writeBytes_BLK_IDX (s : State) (a : Nat) (bs : List Byte) : (s.writeBytes a bs).BLK_IDX = s.BLK_IDX := (rfl)
@[simp] theorem State.writeBytes_KEY_ADDR (s : State) (a : Nat) (bs : List Byte) : (s.writeBytes a bs).KEY_ADDR = s.KEY_ADDR := (rfl)
@[simp] theorem State.writeBytes_KEY_LEN (s : State) (a : Nat) (bs : List Byte) : (s.writeBytes a bs).KEY_LEN = s.KEY_LEN := (rfl)
@[simp] theorem State.writeBytes_NONCE_ADDR (s : State) (a : Nat) (bs : List Byte) : (s.writeBytes a bs).NONCE_ADDR = s.NONCE_ADDR := (rfl)
@[simp] theorem State.writeBytes_NONCE_LEN (s : State) (a : Nat) (bs : List Byte) : (s.writeBytes a bs).NONCE_LEN = s.NONCE_LEN := (rfl)
@[simp] theorem State.writeBytes_IN_ADDR (s : State) (a : Nat) (bs : List Byte) : (s.writeBytes a bs).IN_ADDR = s.IN_ADDR := (rfl)
@[simp] theorem State.writeBytes_IN_LEN (s : State) (a : Nat) (bs : List Byte) : (s.writeBytes a bs).IN_LEN = s.IN_LEN := (rfl)
@[simp] theorem State.writeBytes_OUT_ADDR (s : State) (a : Nat) (bs : List Byte) : (s.writeBytes a bs).OUT_ADDR = s.OUT_ADDR := (rfl)
@[simp] theorem State.writeBytes_TAG_ADDR (s : State) (a : Nat) (bs : List Byte) : (s.writeBytes a bs).TAG_ADDR = s.TAG_ADDR := (rfl)
@[simp] theorem State.writeBytes_TAG_LEN (s : State) (a : Nat) (bs : List Byte) : (s.writeBytes a bs).TAG_LEN = s.TAG_LEN := (rfl)
@[simp] theorem State.writeBytes_mem (s : State) (a : Nat) (bs : List Byte) : (s.writeBytes a bs).mem = s.mem.writeBytes a bs := (rfl)
@[simp] theorem State.writeBytes_memSeed (s : State) (a : Nat) (bs : List Byte) : (s.writeBytes a bs).memSeed = s.memSeed := (rfl)
@[simp] theorem State.writeBytes_cfg (s : State) (a : Nat) (bs : List Byte) : (s.writeBytes a bs).cfg = s.cfg := (rfl)
@[simp] theorem State.writeBytes_pending (s : State) (a : Nat) (bs : List Byte) : (s.writeBytes a bs).pending = s.pending := (rfl)
@[simp] theorem State.writeBytes_returned (s : State) (a : Nat) (bs : List Byte) : (s.writeBytes a bs).returned = s.returned := (rfl)

@[simp] theorem State.complete_W (s : State) : (s.complete).W = s.W := (rfl)
@[simp] theorem State.complete_X (s : State) : (s.complete).X = s.X := (rfl)
@[simp] theorem State.complete_KS (s : State) : (s.complete).KS = s.KS := (rfl)
@[simp] theorem State.complete_R (s : State) : (s.complete).R = s.R := (rfl)
@[simp] theorem State.complete_S (s : State) : (s.complete).S = s.S := (rfl)
@[simp] theorem State.complete_ACC (s : State) : (s.complete).ACC = s.ACC := (rfl)
@[simp] theorem State.complete_TAG (s : State) : (s.complete).TAG = s.TAG := (rfl)
@[simp] theorem State.complete_status (s : State) : (s.complete).status = s.status.completed := (rfl)
@[simp] theorem State.complete_ROUNDS (s : State) : (s.complete).ROUNDS = s.ROUNDS := (rfl)
@[simp] theorem State.complete_BASE_CTR (s : State) : (s.complete).BASE_CTR = s.BASE_CTR := (rfl)
@[simp] theorem State.complete_BLK_IDX (s : State) : (s.complete).BLK_IDX = s.BLK_IDX := (rfl)
@[simp] theorem State.complete_KEY_ADDR (s : State) : (s.complete).KEY_ADDR = s.KEY_ADDR := (rfl)
@[simp] theorem State.complete_KEY_LEN (s : State) : (s.complete).KEY_LEN = s.KEY_LEN := (rfl)
@[simp] theorem State.complete_NONCE_ADDR (s : State) : (s.complete).NONCE_ADDR = s.NONCE_ADDR := (rfl)
@[simp] theorem State.complete_NONCE_LEN (s : State) : (s.complete).NONCE_LEN = s.NONCE_LEN := (rfl)
@[simp] theorem State.complete_IN_ADDR (s : State) : (s.complete).IN_ADDR = s.IN_ADDR := (rfl)
@[simp] theorem State.complete_IN_LEN (s : State) : (s.complete).IN_LEN = s.IN_LEN := (rfl)
@[simp] theorem State.complete_OUT_ADDR (s : State) : (s.complete).OUT_ADDR = s.OUT_ADDR := (rfl)
@[simp] theorem State.complete_TAG_ADDR (s : State) : (s.complete).TAG_ADDR = s.TAG_ADDR := (rfl)
@[simp] theorem State.complete_TAG_LEN (s : State) : (s.complete).TAG_LEN = s.TAG_LEN := (rfl)
@[simp] theorem State.complete_mem (s : State) : (s.complete).mem = s.mem := (rfl)
@[simp] theorem State.complete_memSeed (s : State) : (s.complete).memSeed = s.memSeed := (rfl)
@[simp] theorem State.complete_cfg (s : State) : (s.complete).cfg = s.cfg := (rfl)
@[simp] theorem State.complete_pending (s : State) : (s.complete).pending = s.pending := (rfl)
@[simp] theorem State.complete_returned (s : State) : (s.complete).returned = s.returned := (rfl)

@[simp] theorem State.raise_W (s : State) (e : ErrorKind) : (s.raise e).W = s.W := (rfl)
@[simp] theorem State.raise_X (s : State) (e : ErrorKind) : (s.raise e).X = s.X := (rfl)
@[simp] theorem State.raise_KS (s : State) (e : ErrorKind) : (s.raise e).KS = s.KS := (rfl)
@[simp] theorem State.raise_R (s : State) (e : ErrorKind) : (s.raise e).R = s.R := (rfl)
@[simp] theorem State.raise_S (s : State) (e : ErrorKind) : (s.raise e).S = s.S := (rfl)
@[simp] theorem State.raise_ACC (s : State) (e : ErrorKind) : (s.raise e).ACC = s.ACC := (rfl)
@[simp] theorem State.raise_TAG (s : State) (e : ErrorKind) : (s.raise e).TAG = s.TAG := (rfl)
@[simp] theorem State.raise_status (s : State) (e : ErrorKind) : (s.raise e).status = s.status.raised e := (rfl)
@[simp] theorem State.raise_ROUNDS (s : State) (e : ErrorKind) : (s.raise e).ROUNDS = s.ROUNDS := (rfl)
@[simp] theorem State.raise_BASE_CTR (s : State) (e : ErrorKind) : (s.raise e).BASE_CTR = s.BASE_CTR := (rfl)
@[simp] theorem State.raise_BLK_IDX (s : State) (e : ErrorKind) : (s.raise e).BLK_IDX = s.BLK_IDX := (rfl)
@[simp] theorem State.raise_KEY_ADDR (s : State) (e : ErrorKind) : (s.raise e).KEY_ADDR = s.KEY_ADDR := (rfl)
@[simp] theorem State.raise_KEY_LEN (s : State) (e : ErrorKind) : (s.raise e).KEY_LEN = s.KEY_LEN := (rfl)
@[simp] theorem State.raise_NONCE_ADDR (s : State) (e : ErrorKind) : (s.raise e).NONCE_ADDR = s.NONCE_ADDR := (rfl)
@[simp] theorem State.raise_NONCE_LEN (s : State) (e : ErrorKind) : (s.raise e).NONCE_LEN = s.NONCE_LEN := (rfl)
@[simp] theorem State.raise_IN_ADDR (s : State) (e : ErrorKind) : (s.raise e).IN_ADDR = s.IN_ADDR := (rfl)
@[simp] theorem State.raise_IN_LEN (s : State) (e : ErrorKind) : (s.raise e).IN_LEN = s.IN_LEN := (rfl)
@[simp] theorem State.raise_OUT_ADDR (s : State) (e : ErrorKind) : (s.raise e).OUT_ADDR = s.OUT_ADDR := (rfl)
@[simp] theorem State.raise_TAG_ADDR (s : State) (e : ErrorKind) : (s.raise e).TAG_ADDR = s.TAG_ADDR := (rfl)
@[simp] theorem State.raise_TAG_LEN (s : State) (e : ErrorKind) : (s.raise e).TAG_LEN = s.TAG_LEN := (rfl)
@[simp] theorem State.raise_mem (s : State) (e : ErrorKind) : (s.raise e).mem = s.mem := (rfl)
@[simp] theorem State.raise_memSeed (s : State) (e : ErrorKind) : (s.raise e).memSeed = s.memSeed := (rfl)
@[simp] theorem State.raise_cfg (s : State) (e : ErrorKind) : (s.raise e).cfg = s.cfg := (rfl)
@[simp] theorem State.raise_pending (s : State) (e : ErrorKind) : (s.raise e).pending = s.pending := (rfl)
@[simp] theorem State.raise_returned (s : State) (e : ErrorKind) : (s.raise e).returned = s.returned := (rfl)

@[simp] theorem State.setPhase_W (s : State) (p : Phase) : (s.setPhase p).W = s.W := (rfl)
@[simp] theorem State.setPhase_X (s : State) (p : Phase) : (s.setPhase p).X = s.X := (rfl)
@[simp] theorem State.setPhase_KS (s : State) (p : Phase) : (s.setPhase p).KS = s.KS := (rfl)
@[simp] theorem State.setPhase_R (s : State) (p : Phase) : (s.setPhase p).R = s.R := (rfl)
@[simp] theorem State.setPhase_S (s : State) (p : Phase) : (s.setPhase p).S = s.S := (rfl)
@[simp] theorem State.setPhase_ACC (s : State) (p : Phase) : (s.setPhase p).ACC = s.ACC := (rfl)
@[simp] theorem State.setPhase_TAG (s : State) (p : Phase) : (s.setPhase p).TAG = s.TAG := (rfl)
@[simp] theorem State.setPhase_status (s : State) (p : Phase) : (s.setPhase p).status = s.status.withPhase p := (rfl)
@[simp] theorem State.setPhase_ROUNDS (s : State) (p : Phase) : (s.setPhase p).ROUNDS = s.ROUNDS := (rfl)
@[simp] theorem State.setPhase_BASE_CTR (s : State) (p : Phase) : (s.setPhase p).BASE_CTR = s.BASE_CTR := (rfl)
@[simp] theorem State.setPhase_BLK_IDX (s : State) (p : Phase) : (s.setPhase p).BLK_IDX = s.BLK_IDX := (rfl)
@[simp] theorem State.setPhase_KEY_ADDR (s : State) (p : Phase) : (s.setPhase p).KEY_ADDR = s.KEY_ADDR := (rfl)
@[simp] theorem State.setPhase_KEY_LEN (s : State) (p : Phase) : (s.setPhase p).KEY_LEN = s.KEY_LEN := (rfl)
@[simp] theorem State.setPhase_NONCE_ADDR (s : State) (p : Phase) : (s.setPhase p).NONCE_ADDR = s.NONCE_ADDR := (rfl)
@[simp] theorem State.setPhase_NONCE_LEN (s : State) (p : Phase) : (s.setPhase p).NONCE_LEN = s.NONCE_LEN := (rfl)
@[simp] theorem State.setPhase_IN_ADDR (s : State) (p : Phase) : (s.setPhase p).IN_ADDR = s.IN_ADDR := (rfl)
@[simp] theorem State.setPhase_IN_LEN (s : State) (p : Phase) : (s.setPhase p).IN_LEN = s.IN_LEN := (rfl)
@[simp] theorem State.setPhase_OUT_ADDR (s : State) (p : Phase) : (s.setPhase p).OUT_ADDR = s.OUT_ADDR := (rfl)
@[simp] theorem State.setPhase_TAG_ADDR (s : State) (p : Phase) : (s.setPhase p).TAG_ADDR = s.TAG_ADDR := (rfl)
@[simp] theorem State.setPhase_TAG_LEN (s : State) (p : Phase) : (s.setPhase p).TAG_LEN = s.TAG_LEN := (rfl)
@[simp] theorem State.setPhase_mem (s : State) (p : Phase) : (s.setPhase p).mem = s.mem := (rfl)
@[simp] theorem State.setPhase_memSeed (s : State) (p : Phase) : (s.setPhase p).memSeed = s.memSeed := (rfl)
@[simp] theorem State.setPhase_cfg (s : State) (p : Phase) : (s.setPhase p).cfg = s.cfg := (rfl)
@[simp] theorem State.setPhase_pending (s : State) (p : Phase) : (s.setPhase p).pending = s.pending := (rfl)
@[simp] theorem State.setPhase_returned (s : State) (p : Phase) : (s.setPhase p).returned = s.returned := (rfl)

@[simp] theorem State.writeStatus_W (s : State) (v : Word) : (s.writeStatus v).W = s.W := (rfl)
@[simp] theorem State.writeStatus_X (s : State) (v : Word) : (s.writeStatus v).X = s.X := (rfl)
@[simp] theorem State.writeStatus_KS (s : State) (v : Word) : (s.writeStatus v).KS = s.KS := (rfl)
@[simp] theorem State.writeStatus_R (s : State) (v : Word) : (s.writeStatus v).R = s.R := (rfl)
@[simp] theorem State.writeStatus_S (s : State) (v : Word) : (s.writeStatus v).S = s.S := (rfl)
@[simp] theorem State.writeStatus_ACC (s : State) (v : Word) : (s.writeStatus v).ACC = s.ACC := (rfl)
@[simp] theorem State.writeStatus_TAG (s : State) (v : Word) : (s.writeStatus v).TAG = s.TAG := (rfl)
@[simp] theorem State.writeStatus_status (s : State) (v : Word) : (s.writeStatus v).status = s.status.hostWrite v := (rfl)
@[simp] theorem State.writeStatus_ROUNDS (s : State) (v : Word) : (s.writeStatus v).ROUNDS = s.ROUNDS := (rfl)
@[simp] theorem State.writeStatus_BASE_CTR (s : State) (v : Word) : (s.writeStatus v).BASE_CTR = s.BASE_CTR := (rfl)
@[simp] theorem State.writeStatus_BLK_IDX (s : State) (v : Word) : (s.writeStatus v).BLK_IDX = s.BLK_IDX := (rfl)
@[simp] theorem State.writeStatus_KEY_ADDR (s : State) (v : Word) : (s.writeStatus v).KEY_ADDR = s.KEY_ADDR := (rfl)
@[simp] theorem State.writeStatus_KEY_LEN (s : State) (v : Word) : (s.writeStatus v).KEY_LEN = s.KEY_LEN := (rfl)
@[simp] theorem State.writeStatus_NONCE_ADDR (s : State) (v : Word) : (s.writeStatus v).NONCE_ADDR = s.NONCE_ADDR := (rfl)
@[simp] theorem State.writeStatus_NONCE_LEN (s : State) (v : Word) : (s.writeStatus v).NONCE_LEN = s.NONCE_LEN := (rfl)
@[simp] theorem State.writeStatus_IN_ADDR (s : State) (v : Word) : (s.writeStatus v).IN_ADDR = s.IN_ADDR := (rfl)
@[simp] theorem State.writeStatus_IN_LEN (s : State) (v : Word) : (s.writeStatus v).IN_LEN = s.IN_LEN := (rfl)
@[simp] theorem State.writeStatus_OUT_ADDR (s : State) (v : Word) : (s.writeStatus v).OUT_ADDR = s.OUT_ADDR := (rfl)
@[simp] theorem State.writeStatus_TAG_ADDR (s : State) (v : Word) : (s.writeStatus v).TAG_ADDR = s.TAG_ADDR := (rfl)
@[simp] theorem State.writeStatus_TAG_LEN (s : State) (v : Word) : (s.writeStatus v).TAG_LEN = s.TAG_LEN := (rfl)
@[simp] theorem State.writeStatus_mem (s : State) (v : Word) : (s.writeStatus v).mem = s.mem := (rfl)
@[simp] theorem State.writeStatus_memSeed (s : State) (v : Word) : (s.writeStatus v).memSeed = s.memSeed := (rfl)
@[simp] theorem State.writeStatus_cfg (s : State) (v : Word) : (s.writeStatus v).cfg = s.cfg := (rfl)
@[simp] theorem State.writeStatus_pending (s : State) (v : Word) : (s.writeStatus v).pending = s.pending := (rfl)
@[simp] theorem State.writeStatus_returned (s : State) (v : Word) : (s.writeStatus v).returned = s.returned := (rfl)

@[simp] theorem State.returnValue_W (s : State) (v : HostValue) : (s.returnValue v).W = s.W := (rfl)
@[simp] theorem State.returnValue_X (s : State) (v : HostValue) : (s.returnValue v).X = s.X := (rfl)
@[simp] theorem State.returnValue_KS (s : State) (v : HostValue) : (s.returnValue v).KS = s.KS := (rfl)
@[simp] theorem State.returnValue_R (s : State) (v : HostValue) : (s.returnValue v).R = s.R := (rfl)
@[simp] theorem State.returnValue_S (s : State) (v : HostValue) : (s.returnValue v).S = s.S := (rfl)
@[simp] theorem State.returnValue_ACC (s : State) (v : HostValue) : (s.returnValue v).ACC = s.ACC := (rfl)
@[simp] theorem State.returnValue_TAG (s : State) (v : HostValue) : (s.returnValue v).TAG = s.TAG := (rfl)
@[simp] theorem State.returnValue_status (s : State) (v : HostValue) : (s.returnValue v).status = s.status := (rfl)
@[simp] theorem State.returnValue_ROUNDS (s : State) (v : HostValue) : (s.returnValue v).ROUNDS = s.ROUNDS := (rfl)
@[simp] theorem State.returnValue_BASE_CTR (s : State) (v : HostValue) : (s.returnValue v).BASE_CTR = s.BASE_CTR := (rfl)
@[simp] theorem State.returnValue_BLK_IDX (s : State) (v : HostValue) : (s.returnValue v).BLK_IDX = s.BLK_IDX := (rfl)
@[simp] theorem State.returnValue_KEY_ADDR (s : State) (v : HostValue) : (s.returnValue v).KEY_ADDR = s.KEY_ADDR := (rfl)
@[simp] theorem State.returnValue_KEY_LEN (s : State) (v : HostValue) : (s.returnValue v).KEY_LEN = s.KEY_LEN := (rfl)
@[simp] theorem State.returnValue_NONCE_ADDR (s : State) (v : HostValue) : (s.returnValue v).NONCE_ADDR = s.NONCE_ADDR := (rfl)
@[simp] theorem State.returnValue_NONCE_LEN (s : State) (v : HostValue) : (s.returnValue v).NONCE_LEN = s.NONCE_LEN := (rfl)
@[simp] theorem State.returnValue_IN_ADDR (s : State) (v : HostValue) : (s.returnValue v).IN_ADDR = s.IN_ADDR := (rfl)
@[simp] theorem State.returnValue_IN_LEN (s : State) (v : HostValue) : (s.returnValue v).IN_LEN = s.IN_LEN := (rfl)
@[simp] theorem State.returnValue_OUT_ADDR (s : State) (v : HostValue) : (s.returnValue v).OUT_ADDR = s.OUT_ADDR := (rfl)
@[simp] theorem State.returnValue_TAG_ADDR (s : State) (v : HostValue) : (s.returnValue v).TAG_ADDR = s.TAG_ADDR := (rfl)
@[simp] theorem State.returnValue_TAG_LEN (s : State) (v : HostValue) : (s.returnValue v).TAG_LEN = s.TAG_LEN := (rfl)
@[simp] theorem State.returnValue_mem (s : State) (v : HostValue) : (s.returnValue v).mem = s.mem := (rfl)
@[simp] theorem State.returnValue_memSeed (s : State) (v : HostValue) : (s.returnValue v).memSeed = s.memSeed := (rfl)
@[simp] theorem State.returnValue_cfg (s : State) (v : HostValue) : (s.returnValue v).cfg = s.cfg := (rfl)
@[simp] theorem State.returnValue_pending (s : State) (v : HostValue) : (s.returnValue v).pending = s.pending := (rfl)
@[simp] theorem State.returnValue_returned (s : State) (v : HostValue) : (s.returnValue v).returned = s.returned ++ [v] := (rfl)

@[simp] theorem State.withPending_W (s : State) (rest : List HostAccess) : (s.withPending rest).W = s.W := (rfl)
@[simp] theorem State.withPending_X (s : State) (rest : List HostAccess) : (s.withPending rest).X = s.X := (rfl)
@[simp] theorem State.withPending_KS (s : State) (rest : List HostAccess) : (s.withPending rest).KS = s.KS := (rfl)
@[simp] theorem State.withPending_R (s : State) (rest : List HostAccess) : (s.withPending rest).R = s.R := (rfl)
@[simp] theorem State.withPending_S (s : State) (rest : List HostAccess) : (s.withPending rest).S = s.S := (rfl)
@[simp] theorem State.withPending_ACC (s : State) (rest : List HostAccess) : (s.withPending rest).ACC = s.ACC := (rfl)
@[simp] theorem State.withPending_TAG (s : State) (rest : List HostAccess) : (s.withPending rest).TAG = s.TAG := (rfl)
@[simp] theorem State.withPending_status (s : State) (rest : List HostAccess) : (s.withPending rest).status = s.status := (rfl)
@[simp] theorem State.withPending_ROUNDS (s : State) (rest : List HostAccess) : (s.withPending rest).ROUNDS = s.ROUNDS := (rfl)
@[simp] theorem State.withPending_BASE_CTR (s : State) (rest : List HostAccess) : (s.withPending rest).BASE_CTR = s.BASE_CTR := (rfl)
@[simp] theorem State.withPending_BLK_IDX (s : State) (rest : List HostAccess) : (s.withPending rest).BLK_IDX = s.BLK_IDX := (rfl)
@[simp] theorem State.withPending_KEY_ADDR (s : State) (rest : List HostAccess) : (s.withPending rest).KEY_ADDR = s.KEY_ADDR := (rfl)
@[simp] theorem State.withPending_KEY_LEN (s : State) (rest : List HostAccess) : (s.withPending rest).KEY_LEN = s.KEY_LEN := (rfl)
@[simp] theorem State.withPending_NONCE_ADDR (s : State) (rest : List HostAccess) : (s.withPending rest).NONCE_ADDR = s.NONCE_ADDR := (rfl)
@[simp] theorem State.withPending_NONCE_LEN (s : State) (rest : List HostAccess) : (s.withPending rest).NONCE_LEN = s.NONCE_LEN := (rfl)
@[simp] theorem State.withPending_IN_ADDR (s : State) (rest : List HostAccess) : (s.withPending rest).IN_ADDR = s.IN_ADDR := (rfl)
@[simp] theorem State.withPending_IN_LEN (s : State) (rest : List HostAccess) : (s.withPending rest).IN_LEN = s.IN_LEN := (rfl)
@[simp] theorem State.withPending_OUT_ADDR (s : State) (rest : List HostAccess) : (s.withPending rest).OUT_ADDR = s.OUT_ADDR := (rfl)
@[simp] theorem State.withPending_TAG_ADDR (s : State) (rest : List HostAccess) : (s.withPending rest).TAG_ADDR = s.TAG_ADDR := (rfl)
@[simp] theorem State.withPending_TAG_LEN (s : State) (rest : List HostAccess) : (s.withPending rest).TAG_LEN = s.TAG_LEN := (rfl)
@[simp] theorem State.withPending_mem (s : State) (rest : List HostAccess) : (s.withPending rest).mem = s.mem := (rfl)
@[simp] theorem State.withPending_memSeed (s : State) (rest : List HostAccess) : (s.withPending rest).memSeed = s.memSeed := (rfl)
@[simp] theorem State.withPending_cfg (s : State) (rest : List HostAccess) : (s.withPending rest).cfg = s.cfg := (rfl)
@[simp] theorem State.withPending_pending (s : State) (rest : List HostAccess) : (s.withPending rest).pending = rest := (rfl)
@[simp] theorem State.withPending_returned (s : State) (rest : List HostAccess) : (s.withPending rest).returned = s.returned := (rfl)

@[simp] theorem State.setAcc_W (s : State) (a : Nat) : (s.setAcc a).W = s.W := (rfl)
@[simp] theorem State.setAcc_X (s : State) (a : Nat) : (s.setAcc a).X = s.X := (rfl)
@[simp] theorem State.setAcc_KS (s : State) (a : Nat) : (s.setAcc a).KS = s.KS := (rfl)
@[simp] theorem State.setAcc_R (s : State) (a : Nat) : (s.setAcc a).R = s.R := (rfl)
@[simp] theorem State.setAcc_S (s : State) (a : Nat) : (s.setAcc a).S = s.S := (rfl)
@[simp] theorem State.setAcc_ACC (s : State) (a : Nat) : (s.setAcc a).ACC = BitVec.ofNat 130 a := (rfl)
@[simp] theorem State.setAcc_TAG (s : State) (a : Nat) : (s.setAcc a).TAG = s.TAG := (rfl)
@[simp] theorem State.setAcc_status (s : State) (a : Nat) : (s.setAcc a).status = s.status := (rfl)
@[simp] theorem State.setAcc_ROUNDS (s : State) (a : Nat) : (s.setAcc a).ROUNDS = s.ROUNDS := (rfl)
@[simp] theorem State.setAcc_BASE_CTR (s : State) (a : Nat) : (s.setAcc a).BASE_CTR = s.BASE_CTR := (rfl)
@[simp] theorem State.setAcc_BLK_IDX (s : State) (a : Nat) : (s.setAcc a).BLK_IDX = s.BLK_IDX := (rfl)
@[simp] theorem State.setAcc_KEY_ADDR (s : State) (a : Nat) : (s.setAcc a).KEY_ADDR = s.KEY_ADDR := (rfl)
@[simp] theorem State.setAcc_KEY_LEN (s : State) (a : Nat) : (s.setAcc a).KEY_LEN = s.KEY_LEN := (rfl)
@[simp] theorem State.setAcc_NONCE_ADDR (s : State) (a : Nat) : (s.setAcc a).NONCE_ADDR = s.NONCE_ADDR := (rfl)
@[simp] theorem State.setAcc_NONCE_LEN (s : State) (a : Nat) : (s.setAcc a).NONCE_LEN = s.NONCE_LEN := (rfl)
@[simp] theorem State.setAcc_IN_ADDR (s : State) (a : Nat) : (s.setAcc a).IN_ADDR = s.IN_ADDR := (rfl)
@[simp] theorem State.setAcc_IN_LEN (s : State) (a : Nat) : (s.setAcc a).IN_LEN = s.IN_LEN := (rfl)
@[simp] theorem State.setAcc_OUT_ADDR (s : State) (a : Nat) : (s.setAcc a).OUT_ADDR = s.OUT_ADDR := (rfl)
@[simp] theorem State.setAcc_TAG_ADDR (s : State) (a : Nat) : (s.setAcc a).TAG_ADDR = s.TAG_ADDR := (rfl)
@[simp] theorem State.setAcc_TAG_LEN (s : State) (a : Nat) : (s.setAcc a).TAG_LEN = s.TAG_LEN := (rfl)
@[simp] theorem State.setAcc_mem (s : State) (a : Nat) : (s.setAcc a).mem = s.mem := (rfl)
@[simp] theorem State.setAcc_memSeed (s : State) (a : Nat) : (s.setAcc a).memSeed = s.memSeed := (rfl)
@[simp] theorem State.setAcc_cfg (s : State) (a : Nat) : (s.setAcc a).cfg = s.cfg := (rfl)
@[simp] theorem State.setAcc_pending (s : State) (a : Nat) : (s.setAcc a).pending = s.pending := (rfl)
@[simp] theorem State.setAcc_returned (s : State) (a : Nat) : (s.setAcc a).returned = s.returned := (rfl)

@[simp] theorem State.setAccTag_W (s : State) (a : Nat) : (s.setAccTag a).W = s.W := (rfl)
@[simp] theorem State.setAccTag_X (s : State) (a : Nat) : (s.setAccTag a).X = s.X := (rfl)
@[simp] theorem State.setAccTag_KS (s : State) (a : Nat) : (s.setAccTag a).KS = s.KS := (rfl)
@[simp] theorem State.setAccTag_R (s : State) (a : Nat) : (s.setAccTag a).R = s.R := (rfl)
@[simp] theorem State.setAccTag_S (s : State) (a : Nat) : (s.setAccTag a).S = s.S := (rfl)
@[simp] theorem State.setAccTag_ACC (s : State) (a : Nat) : (s.setAccTag a).ACC = BitVec.ofNat 130 a := (rfl)
@[simp] theorem State.setAccTag_TAG (s : State) (a : Nat) : (s.setAccTag a).TAG = BitVec.ofNat 128 a := (rfl)
@[simp] theorem State.setAccTag_status (s : State) (a : Nat) : (s.setAccTag a).status = s.status := (rfl)
@[simp] theorem State.setAccTag_ROUNDS (s : State) (a : Nat) : (s.setAccTag a).ROUNDS = s.ROUNDS := (rfl)
@[simp] theorem State.setAccTag_BASE_CTR (s : State) (a : Nat) : (s.setAccTag a).BASE_CTR = s.BASE_CTR := (rfl)
@[simp] theorem State.setAccTag_BLK_IDX (s : State) (a : Nat) : (s.setAccTag a).BLK_IDX = s.BLK_IDX := (rfl)
@[simp] theorem State.setAccTag_KEY_ADDR (s : State) (a : Nat) : (s.setAccTag a).KEY_ADDR = s.KEY_ADDR := (rfl)
@[simp] theorem State.setAccTag_KEY_LEN (s : State) (a : Nat) : (s.setAccTag a).KEY_LEN = s.KEY_LEN := (rfl)
@[simp] theorem State.setAccTag_NONCE_ADDR (s : State) (a : Nat) : (s.setAccTag a).NONCE_ADDR = s.NONCE_ADDR := (rfl)
@[simp] theorem State.setAccTag_NONCE_LEN (s : State) (a : Nat) : (s.setAccTag a).NONCE_LEN = s.NONCE_LEN := (rfl)
@[simp] theorem State.setAccTag_IN_ADDR (s : State) (a : Nat) : (s.setAccTag a).IN_ADDR = s.IN_ADDR := (rfl)
@[simp] theorem State.setAccTag_IN_LEN (s : State) (a : Nat) : (s.setAccTag a).IN_LEN = s.IN_LEN := (rfl)
@[simp] theorem State.setAccTag_OUT_ADDR (s : State) (a : Nat) : (s.setAccTag a).OUT_ADDR = s.OUT_ADDR := (rfl)
@[simp] theorem State.setAccTag_TAG_ADDR (s : State) (a : Nat) : (s.setAccTag a).TAG_ADDR = s.TAG_ADDR := (rfl)
@[simp] theorem State.setAccTag_TAG_LEN (s : State) (a : Nat) : (s.setAccTag a).TAG_LEN = s.TAG_LEN := (rfl)
@[simp] theorem State.setAccTag_mem (s : State) (a : Nat) : (s.setAccTag a).mem = s.mem := (rfl)
@[simp] theorem State.setAccTag_memSeed (s : State) (a : Nat) : (s.setAccTag a).memSeed = s.memSeed := (rfl)
@[simp] theorem State.setAccTag_cfg (s : State) (a : Nat) : (s.setAccTag a).cfg = s.cfg := (rfl)
@[simp] theorem State.setAccTag_pending (s : State) (a : Nat) : (s.setAccTag a).pending = s.pending := (rfl)
@[simp] theorem State.setAccTag_returned (s : State) (a : Nat) : (s.setAccTag a).returned = s.returned := (rfl)

@[simp] theorem State.applyReset_W (s : State) : s.applyReset.W = State.reset.W := (rfl)
@[simp] theorem State.applyReset_X (s : State) : s.applyReset.X = State.reset.X := (rfl)
@[simp] theorem State.applyReset_KS (s : State) : s.applyReset.KS = State.reset.KS := (rfl)
@[simp] theorem State.applyReset_R (s : State) : s.applyReset.R = State.reset.R := (rfl)
@[simp] theorem State.applyReset_S (s : State) : s.applyReset.S = State.reset.S := (rfl)
@[simp] theorem State.applyReset_ACC (s : State) : s.applyReset.ACC = State.reset.ACC := (rfl)
@[simp] theorem State.applyReset_TAG (s : State) : s.applyReset.TAG = State.reset.TAG := (rfl)
@[simp] theorem State.applyReset_status (s : State) : s.applyReset.status = State.reset.status := (rfl)
@[simp] theorem State.applyReset_ROUNDS (s : State) : s.applyReset.ROUNDS = State.reset.ROUNDS := (rfl)
@[simp] theorem State.applyReset_BASE_CTR (s : State) : s.applyReset.BASE_CTR = State.reset.BASE_CTR := (rfl)
@[simp] theorem State.applyReset_BLK_IDX (s : State) : s.applyReset.BLK_IDX = State.reset.BLK_IDX := (rfl)
@[simp] theorem State.applyReset_KEY_ADDR (s : State) : s.applyReset.KEY_ADDR = State.reset.KEY_ADDR := (rfl)
@[simp] theorem State.applyReset_KEY_LEN (s : State) : s.applyReset.KEY_LEN = State.reset.KEY_LEN := (rfl)
@[simp] theorem State.applyReset_NONCE_ADDR (s : State) : s.applyReset.NONCE_ADDR = State.reset.NONCE_ADDR := (rfl)
@[simp] theorem State.applyReset_NONCE_LEN (s : State) : s.applyReset.NONCE_LEN = State.reset.NONCE_LEN := (rfl)
@[simp] theorem State.applyReset_IN_ADDR (s : State) : s.applyReset.IN_ADDR = State.reset.IN_ADDR := (rfl)
@[simp] theorem State.applyReset_IN_LEN (s : State) : s.applyReset.IN_LEN = State.reset.IN_LEN := (rfl)
@[simp] theorem State.applyReset_OUT_ADDR (s : State) : s.applyReset.OUT_ADDR = State.reset.OUT_ADDR := (rfl)
@[simp] theorem State.applyReset_TAG_ADDR (s : State) : s.applyReset.TAG_ADDR = State.reset.TAG_ADDR := (rfl)
@[simp] theorem State.applyReset_TAG_LEN (s : State) : s.applyReset.TAG_LEN = State.reset.TAG_LEN := (rfl)
@[simp] theorem State.applyReset_mem (s : State) : s.applyReset.mem = s.mem := (rfl)
@[simp] theorem State.applyReset_memSeed (s : State) : s.applyReset.memSeed = s.memSeed := (rfl)
@[simp] theorem State.applyReset_cfg (s : State) : s.applyReset.cfg = s.cfg := (rfl)
@[simp] theorem State.applyReset_pending (s : State) : s.applyReset.pending = s.pending := (rfl)
@[simp] theorem State.applyReset_returned (s : State) : s.applyReset.returned = s.returned := (rfl)

end Sys2Proof.Machine
end

