-- ==== Sys2Proof/Laws/Memory.lean ====
section
/-! SUPPORT. The laws of MEM: a read after a write, what a write leaves alone, and that every memory operation
keeps the canonical form and stays inside MEM. -/

namespace Sys2Proof.Machine

namespace Memory

/-- A read after a write of one byte. -/
theorem lookup_insert (m : Memory) (a : Nat) (b : Byte) (x : Nat) :
    lookup (insert m a b) x = if x = a then some b else lookup m x := by
  induction m with
  | nil => simp only [insert, lookup, eq_comm]
  | cons c rest ih =>
    simp only [insert]
    split
    · simp only [lookup, eq_comm]
    · split
      · next h => subst h; simp only [lookup, eq_comm]; split <;> rfl
      · next h =>
        simp only [lookup, ih]
        split
        · next h' => rw [if_neg (by omega)]
        · rfl

/-- What MEM lists after a MemWrite: the written bytes, and everything else as before. -/
theorem lookup_writeBytes (bs : List Byte) : ∀ (m : Memory) (a x : Nat),
    lookup (writeBytes m a bs) x =
      if a ≤ x ∧ x < a + bs.length then bs[x - a]? else lookup m x := by
  induction bs with
  | nil => intro m a x; simp only [writeBytes, List.length_nil]; rw [if_neg (by omega)]
  | cons b bs ih =>
    intro m a x
    simp only [writeBytes, ih, lookup_insert, List.length_cons]
    by_cases h1 : x = a
    · subst h1
      rw [if_neg (by omega), if_pos rfl, if_pos (by omega)]
      simp
    · by_cases h2 : a ≤ x ∧ x < a + (bs.length + 1)
      · rw [if_pos (by omega), if_pos h2]
        obtain ⟨k, rfl⟩ : ∃ k, x = a + 1 + k := ⟨x - (a + 1), by omega⟩
        rw [show a + 1 + k - (a + 1) = k by omega, show a + 1 + k - a = k + 1 by omega]
        simp
      · rw [if_neg (by omega), if_neg h1, if_neg h2]

/-- Every address of a canonical memory with a given head is above it. -/
theorem wf_cons (c : Host.Cell) (m : Memory) :
    wf (c :: m) = true ↔ wf m = true ∧ ∀ d, m.head? = some d → c.1 < d.1 := by
  cases m with
  | nil => simp [wf]
  | cons d rest => simp [wf, and_comm]

/-- The head of a memory after an insert. -/
theorem head_insert (m : Memory) (a : Nat) (b : Byte) (d : Host.Cell)
    (h : (insert m a b).head? = some d) : d = (a, b) ∨ m.head? = some d := by
  cases m with
  | nil => simp only [insert, List.head?_cons, Option.some.injEq] at h; exact .inl h.symm
  | cons c rest =>
    simp only [insert] at h
    split at h
    · simp only [List.head?_cons, Option.some.injEq] at h; exact .inl h.symm
    · split at h
      · simp only [List.head?_cons, Option.some.injEq] at h; exact .inl h.symm
      · exact .inr (by simpa using h)

/-- One written byte keeps the canonical form. -/
theorem wf_insert (m : Memory) (a : Nat) (b : Byte) (h : wf m = true) : wf (insert m a b) = true := by
  induction m with
  | nil => rfl
  | cons c rest ih =>
    have hc := (wf_cons c rest).1 h
    simp only [insert]
    split
    · next hlt => exact (wf_cons _ _).2 ⟨h, by simpa using hlt⟩
    · split
      · next heq => subst heq; exact (wf_cons _ _).2 ⟨hc.1, hc.2⟩
      · next hge hne =>
        refine (wf_cons _ _).2 ⟨ih hc.1, fun d hd => ?_⟩
        rcases head_insert rest a b d hd with rfl | hd'
        · simp only; omega
        · exact hc.2 d hd'

/-- A MemWrite keeps the canonical form. -/
theorem wf_writeBytes (bs : List Byte) : ∀ (m : Memory) (a : Nat), wf m = true → wf (writeBytes m a bs) = true := by
  induction bs with
  | nil => intro m a h; exact h
  | cons b bs ih => intro m a h; exact ih _ _ (wf_insert m a b h)

/-- A byte written below MEM_SIZE keeps MEM inside MEM_SIZE. -/
theorem within_insert (n : Nat) (m : Memory) (a : Nat) (b : Byte) (h : within n m = true) (ha : a < n) :
    within n (insert m a b) = true := by
  induction m with
  | nil => simpa [insert, within] using ha
  | cons c rest ih =>
    simp only [within, List.all_cons, Bool.and_eq_true, decide_eq_true_eq] at h ih ⊢
    simp only [insert]
    split
    · simp only [List.all_cons, Bool.and_eq_true, decide_eq_true_eq]; exact ⟨ha, h.1, h.2⟩
    · split
      · simp only [List.all_cons, Bool.and_eq_true, decide_eq_true_eq]; exact ⟨ha, h.2⟩
      · simp only [List.all_cons, Bool.and_eq_true, decide_eq_true_eq]; exact ⟨h.1, ih h.2⟩

/-- A MemWrite of a buffer in range keeps MEM inside MEM_SIZE. -/
theorem within_writeBytes (n : Nat) (bs : List Byte) : ∀ (m : Memory) (a : Nat), within n m = true →
    a + bs.length ≤ n → within n (writeBytes m a bs) = true := by
  induction bs with
  | nil => intro m a h _; exact h
  | cons b bs ih =>
    intro m a h ha
    simp only [List.length_cons] at ha
    exact ih _ _ (within_insert n m a b h (by omega)) (by omega)

end Memory

namespace State

/-- A state that lists the same bytes and has the same seed reads the same. -/
theorem readByte_congr (s t : State) (hm : t.mem = s.mem) (hs : t.memSeed = s.memSeed) (a : Nat) :
    t.readByte a = s.readByte a := by
  simp only [readByte, hm, hs]

/-- What a read of one byte gives after a MemWrite. -/
theorem readByte_writeBytes (s : State) (a : Nat) (bs : List Byte) (x : Nat) :
    (s.writeBytes a bs).readByte x =
      if h : a ≤ x ∧ x < a + bs.length then bs[x - a]'(by omega) else s.readByte x := by
  simp only [readByte, writeBytes_mem, Memory.lookup_writeBytes, writeBytes_memSeed]
  by_cases h : a ≤ x ∧ x < a + bs.length
  · have hlt : x - a < bs.length := by omega
    rw [dif_pos h, if_pos h, List.getElem?_eq_getElem hlt]
  · rw [dif_neg h, if_neg h]

/-- A MemWrite leaves every byte outside it as it was. -/
theorem readByte_writeBytes_outside (s : State) (a : Nat) (bs : List Byte) (x : Nat)
    (h : ¬(a ≤ x ∧ x < a + bs.length)) : (s.writeBytes a bs).readByte x = s.readByte x := by
  rw [readByte_writeBytes, dif_neg h]

@[simp] theorem readBuffer_length (s : State) (b : Buffer) : (s.readBuffer b).length = b.len := by
  simp [readBuffer]

/-- The i-th byte of a MemRead. -/
theorem readBuffer_getElem (s : State) (b : Buffer) (i : Nat) (h : i < (s.readBuffer b).length) :
    (s.readBuffer b)[i] = s.readByte (b.addr + i) := by
  simp [readBuffer]

end State

end Sys2Proof.Machine
end

