-- ==== Sys2Proof/Laws/Command.lean ====
section
/-! SUPPORT. What a command can do: the checks and the end of a command, said once. -/

namespace Sys2Proof.Machine

namespace State

@[simp] theorem keyBuffer_addr (s : State) : s.keyBuffer.addr = s.KEY_ADDR.toNat := (rfl)
@[simp] theorem keyBuffer_len (s : State) : s.keyBuffer.len = 32 := (rfl)
@[simp] theorem nonceBuffer_addr (s : State) : s.nonceBuffer.addr = s.NONCE_ADDR.toNat := (rfl)
@[simp] theorem nonceBuffer_len (s : State) : s.nonceBuffer.len = 12 := (rfl)
@[simp] theorem inBuffer_addr (s : State) : s.inBuffer.addr = s.IN_ADDR.toNat := (rfl)
@[simp] theorem inBuffer_len (s : State) : s.inBuffer.len = s.IN_LEN.toNat := (rfl)
@[simp] theorem outBuffer_addr (s : State) : s.outBuffer.addr = s.OUT_ADDR.toNat := (rfl)
@[simp] theorem outBuffer_len (s : State) : s.outBuffer.len = s.IN_LEN.toNat := (rfl)
@[simp] theorem tagBuffer_addr (s : State) : s.tagBuffer.addr = s.TAG_ADDR.toNat := (rfl)
@[simp] theorem tagBuffer_len (s : State) : s.tagBuffer.len = 16 := (rfl)

@[simp] theorem key_length (s : State) : s.key.length = 32 := readBuffer_length s _
@[simp] theorem nonce_length (s : State) : s.nonce.length = 12 := readBuffer_length s _
@[simp] theorem input_length (s : State) : s.input.length = s.IN_LEN.toNat := readBuffer_length s _
@[simp] theorem suppliedTag_length (s : State) : s.suppliedTag.length = 16 := readBuffer_length s _

end State

/-- Every check passes iff no error is found. -/
theorem firstFailure_none (checks : List Check) :
    firstFailure checks = none ↔ ∀ c ∈ checks, c.1 = false := by
  induction checks with
  | nil => simp [firstFailure]
  | cons c rest ih =>
    obtain ⟨failed, e⟩ := c
    cases failed <;> simp [firstFailure, ih]

/-- The error found is that of a check. -/
theorem firstFailure_mem (checks : List Check) (e : ErrorKind) (h : firstFailure checks = some e) :
    (true, e) ∈ checks := by
  induction checks with
  | nil => simp [firstFailure] at h
  | cons c rest ih =>
    obtain ⟨failed, e'⟩ := c
    cases failed with
    | true => simp [firstFailure] at h; simp [h]
    | false => simp [firstFailure] at h; exact List.mem_cons_of_mem _ (ih h)

/-- A command that found an error takes it and does nothing else. -/
@[simp] theorem State.command_some (s effect : State) (e : ErrorKind) :
    s.command (some e) effect = s.raise e := rfl

/-- A command that found no error performs its effect and completes. -/
@[simp] theorem State.command_none (s effect : State) : s.command none effect = effect.complete := rfl

@[simp] theorem State.aeadCommand_some (s effect : State) (e : ErrorKind) :
    s.aeadCommand (some e) effect = (s.raise e).setPhase e.phase := rfl

@[simp] theorem State.aeadCommand_none (s effect : State) :
    s.aeadCommand none effect = effect.complete.setPhase .DONE := rfl

/-- No error kind has the code of success. -/
theorem ErrorKind.code_ne_zero (e : ErrorKind) : e.code ≠ 0#4 := by cases e <;> decide

/-- Every error code is one of 1 to 7. -/
theorem ErrorKind.code_le (e : ErrorKind) : e.code.toNat ≤ 7 := by cases e <;> decide

/-- The phase of an error is VALIDATE or TAG. -/
theorem ErrorKind.phase_cases (e : ErrorKind) : e.phase = .VALIDATE ∨ e.phase = .TAG := by
  cases e <;> simp [ErrorKind.phase]

/-- KEY_LEN, NONCE_LEN, TAG_LEN and ROUNDS, and the ranges: when each check passes. -/
theorem State.keyLenCheck_pass (s : State) : s.keyLenCheck.1 = false ↔ s.KEY_LEN = 32#32 := by
  simp [State.keyLenCheck]

theorem State.nonceLenCheck_pass (s : State) : s.nonceLenCheck.1 = false ↔ s.NONCE_LEN = 12#32 := by
  simp [State.nonceLenCheck]

theorem State.tagLenCheck_pass (s : State) : s.tagLenCheck.1 = false ↔ s.TAG_LEN = 16#32 := by
  simp [State.tagLenCheck]

theorem State.roundsCheck_pass (s : State) :
    s.roundsCheck.1 = false ↔ s.rounds ≠ 0 ∧ s.rounds % 2 ≠ 1 := by
  simp [State.roundsCheck]

theorem State.rangeCheck_pass (s : State) (buffers : List Buffer) :
    (s.rangeCheck buffers).1 = false ↔ ∀ b ∈ buffers, b.addr + b.len ≤ s.cfg.memSize := by
  simp [State.rangeCheck, Buffer.inRange]

theorem State.blockLenCheck_pass (s : State) :
    s.blockLenCheck.1 = false ↔ 1 ≤ s.IN_LEN.toNat ∧ s.IN_LEN.toNat ≤ 16 := by
  simp [State.blockLenCheck]; omega

end Sys2Proof.Machine
end

