-- ==== Sys2Proof/Laws/Step.lean ====
section
/-! SUPPORT. What a step can do, said once per access. -/

namespace Sys2Proof.Machine

/-- With no access to come the core stays as it is. -/
theorem step_idle (s : State) (h : s.pending = []) : step s = .next s := by
  simp only [step, nextAction, h]

/-- The next action serves the next access. -/
theorem nextAction_cons (s : State) (access : HostAccess) (rest : List HostAccess)
    (h : s.pending = access :: rest) : nextAction s = serveAccess access (s.withPending rest) := by
  rw [nextAction, h]

/-- The next access is served from the state without it. -/
theorem step_cons (s : State) (access : HostAccess) (rest : List HostAccess)
    (h : s.pending = access :: rest) :
    step s = match serveAccess access (s.withPending rest) with
      | .run i s' => exec i s'
      | .done o => o := by
  show (match nextAction s with
    | .run i s' => exec i s'
    | .done o => o) = _
  rw [nextAction_cons s access rest h]

/-- A write of a legal word to CMD runs its command. -/
theorem serve_command (s : State) (v : Word) (i : Instr) (h : decode v = .ok i) :
    serveAccess (.regWrite 0x000 v) s = .run i s := by
  simp [serveAccess, offsetRefusal, regAt, issueCommand, h]

/-- A write of an illegal word to CMD takes IllegalCommand. -/
theorem serve_illegal (s : State) (v : Word) (e : IllegalWord) (h : decode v = .error e) :
    serveAccess (.regWrite 0x000 v) s = .done (.next (s.raise .illegalCommand)) := by
  simp [serveAccess, offsetRefusal, regAt, issueCommand, illegalCommand, h]

/-- A register access at an admitted offset is not refused. -/
theorem offsetRefusal_none (off : Nat) : offsetRefusal off = none ↔ offsetOk off = true := by
  simp only [offsetRefusal, offsetOk]
  split
  · simp_all
  · split <;> simp_all

/-- A command never faults and is never refused. -/
theorem exec_next (i : Instr) (s : State) : ∃ t, exec i s = .next t := by
  cases i <;> exact ⟨_, rfl⟩

end Sys2Proof.Machine
end

