-- ==== Sys2Proof/Laws/Exec.lean ====
section
/-! SUPPORT. One equation per meaning, which proofs rewrite with instead of unfolding `exec`, and the cases of
a command's end. -/

namespace Sys2Proof.Machine

theorem exec_qr (a b c d : Fin 16) (s : State) :
    exec (.qr a b c d) s = .next { s with W := quarter a b c d s.W, status := s.status.completed } := (rfl)

theorem exec_dround (s : State) :
    exec .dround s = .next { s with W := doubleRound s.W, status := s.status.completed } := (rfl)

theorem exec_binit (s : State) :
    exec .binit s = .next (s.command (binitFailure s) { s with X := s.builtState, W := s.builtState }) := (rfl)

theorem exec_bfinal (s : State) :
    exec .bfinal s = .next { s with KS := addWords s.X s.W, status := s.status.completed } := (rfl)

theorem exec_block (s : State) :
    exec .block s = .next (s.command (blockFailure s)
      { s with
        X := s.builtState
        W := workingState s.key s.blockCounter s.nonce s.rounds
        KS := blockOutput s.key s.blockCounter s.nonce s.rounds }) := (rfl)

theorem exec_stream (s : State) :
    exec .stream s = .next (s.command (streamFailure s)
      (s.writeBytes s.outBuffer.addr (xorStream s.key s.nonce s.BASE_CTR s.rounds s.input))) := (rfl)

theorem exec_macKey (s : State) :
    exec .macKey s = .next (s.command (macKeyFailure s)
      { s with R := multiplierOf s.cfg.clampMask s.key, S := secretOf s.key, ACC := 0#130 }) := (rfl)

theorem exec_macClear (s : State) :
    exec .macClear s = .next { s with ACC := 0#130, status := s.status.completed } := (rfl)

theorem exec_macBlock (s : State) :
    exec .macBlock s = .next (s.command (macBlockFailure s)
      (s.setAcc (fold s.R.toNat s.ACC.toNat s.input))) := (rfl)

theorem exec_macFinal (s : State) :
    exec .macFinal s = .next (s.setAccTag (final s.ACC.toNat s.S.toNat)).complete := (rfl)

theorem exec_macTag (s : State) :
    exec .macTag s = .next (s.command (macTagFailure s)
      ((s.setAccTag s.finalised).writeBytes s.tagBuffer.addr (tagBytes s.finalised))) := (rfl)

theorem exec_aeadSeal (s : State) :
    exec .aeadSeal s = .next (s.aeadCommand (sealFailure s)
      ((s.writeBytes s.outBuffer.addr s.sealed).writeBytes s.tagBuffer.addr
        (macFresh s.cfg.clampMask s.key s.sealed))) := (rfl)

theorem exec_aeadOpen (s : State) :
    exec .aeadOpen s = .next (s.aeadCommand (openFailure s)
      (s.writeBytes s.outBuffer.addr (aeadCipher s.key s.nonce s.input))) := (rfl)

/-- A command ends with its error taken, or with its effect and ERR = 0. -/
theorem command_cases (s effect : State) (failure : Option ErrorKind) :
    (∃ e, failure = some e ∧ s.command failure effect = s.raise e) ∨
      (failure = none ∧ s.command failure effect = effect.complete) := by
  cases failure with
  | none => exact .inr ⟨rfl, rfl⟩
  | some e => exact .inl ⟨e, rfl, rfl⟩

/-- SEAL or OPEN ends with its error taken and the error's phase, or with its effect, ERR = 0 and DONE. -/
theorem aeadCommand_cases (s effect : State) (failure : Option ErrorKind) :
    (∃ e, failure = some e ∧ s.aeadCommand failure effect = (s.raise e).setPhase e.phase) ∨
      (failure = none ∧ s.aeadCommand failure effect = effect.complete.setPhase .DONE) := by
  cases failure with
  | none => exact .inr ⟨rfl, rfl⟩
  | some e => exact .inl ⟨e, rfl, rfl⟩

end Sys2Proof.Machine
end

