-- ==== Sys2Proof/Laws/HostPort.lean ====
section
/-! SUPPORT. The register window: where each indexed register stands, and what a read and a write of an admitted
offset do. -/

namespace Sys2Proof.Machine

theorem regAt_W (i : Fin 16) : regAt (0x040 + 4 * i.val) = .W i := by revert i; decide
theorem regAt_X (i : Fin 16) : regAt (0x080 + 4 * i.val) = .X i := by revert i; decide
theorem regAt_KS (i : Fin 16) : regAt (0x0C0 + 4 * i.val) = .KS i := by revert i; decide
theorem regAt_R_W (j : Fin 4) : regAt (0x100 + 4 * j.val) = .R_W j := by revert j; decide
theorem regAt_S_W (j : Fin 4) : regAt (0x110 + 4 * j.val) = .S_W j := by revert j; decide
theorem regAt_ACC_W (j : Fin 5) : regAt (0x120 + 4 * j.val) = .ACC_W j := by revert j; decide
theorem regAt_TAG_W (j : Fin 4) : regAt (0x140 + 4 * j.val) = .TAG_W j := by revert j; decide

/-- Every offset from 0x150 on is reserved. -/
theorem regAt_high (off : Nat) (h : 0x150 ≤ off) : regAt off = .reserved := by
  simp only [regAt]
  repeat rw [if_neg (by omega)]

/-- Only offset 0 is CMD. -/
theorem regAt_eq_CMD (off : Nat) : regAt off = .CMD ↔ off = 0x000 := by
  constructor
  · intro h
    by_cases hlt : off < 0x150
    · have hall : ∀ n : Fin 0x150, regAt n.val = .CMD → n.val = 0 := by decide +kernel
      exact hall ⟨off, hlt⟩ h
    · rw [regAt_high off (by omega)] at h
      cases h
  · rintro rfl; rfl

/-- A read of an admitted offset returns the register's value and changes nothing else. -/
theorem serve_regRead (s : State) (off : Nat) (h : offsetOk off = true) :
    serveAccess (.regRead off) s = .done (.next (s.returnValue (.reg (readReg (regAt off) s)))) := by
  simp only [serveAccess, (offsetRefusal_none off).2 h]

/-- A write to an admitted offset but CMD's writes its register. -/
theorem serve_regWrite (s : State) (off : Nat) (v : Word) (h : offsetOk off = true) (h0 : off ≠ 0x000) :
    serveAccess (.regWrite off v) s = .done (.next (writeReg (regAt off) v s)) := by
  have hc : regAt off ≠ .CMD := fun hc => h0 ((regAt_eq_CMD off).1 hc)
  simp only [serveAccess, (offsetRefusal_none off).2 h]

/-- A register write other than to CMD leaves MEM, the parameters and the host's side of the run alone. -/
theorem writeReg_frame (r : RegName) (v : Word) (s : State) :
    (writeReg r v s).mem = s.mem ∧ (writeReg r v s).memSeed = s.memSeed ∧ (writeReg r v s).cfg = s.cfg ∧
      (writeReg r v s).pending = s.pending ∧ (writeReg r v s).returned = s.returned := by
  cases r <;> exact ⟨rfl, rfl, rfl, rfl, rfl⟩

end Sys2Proof.Machine
end

