-- ==== Sys2Proof/Laws/PerInstr.lean ====
section
/-! SUPPORT. Statements made per instruction: the family EncodingRow says that a command's word is selected by
the row of the opcode map with its mnemonic and opcode (30_encoding R84). -/

namespace Sys2Proof.Laws.EncodingRow

/-- The word of a command has its opcode in bits [7:0], and a row of the opcode map with its mnemonic
selects it. -/
def Statement (i : Instr) : Prop :=
  opcField (encode i) = i.opcode ∧
    ∃ r ∈ opcodeTable, r.mnemonic = i.mnemonic ∧ r.selects (encode i) = true

/-- The bits of a format Q word that the mask of QR keeps. -/
theorem encodeQ_masked (opc : BitVec 8) (a b c d : Fin 16) :
    encodeQ opc a b c d &&& 0xFF0000FF#32 = 0#24 ++ opc := by
  apply BitVec.eq_of_getLsbD_eq
  intro i hi
  simp only [encodeQ, BitVec.getLsbD_and, BitVec.getLsbD_append]
  by_cases h8 : i < 8
  · have : (0xFF0000FF#32).getLsbD i = true := by
      interval_cases i <;> rfl
    simp [h8, this]
  · have hz : (0#24).getLsbD (i - 8) = false := by simp
    simp only [h8, hz]
    by_cases h24 : i < 24
    · have : (0xFF0000FF#32).getLsbD i = false := by
        interval_cases i <;> rfl
      simp [this]
    · have e1 : ¬ i - 8 < 4 := by omega
      have e2 : ¬ i - 8 - 4 < 4 := by omega
      have e3 : ¬ i - 8 - 4 - 4 < 4 := by omega
      have e4 : ¬ i - 8 - 4 - 4 - 4 < 4 := by omega
      simp [e1, e2, e3, e4]

theorem encodeQ_opcode (opc : BitVec 8) (a b c d : Fin 16) : opcField (encodeQ opc a b c d) = opc := by
  apply BitVec.eq_of_getLsbD_eq
  intro i hi
  simp only [opcField, encodeQ, BitVec.getLsbD_extractLsb', BitVec.getLsbD_append, Nat.zero_add]
  simp [hi]

theorem qr (a b c d : Fin 16) : Statement (.qr a b c d) :=
  ⟨encodeQ_opcode _ _ _ _ _, rowQR, List.mem_cons_self, rfl, by
    simp only [OpcodeRow.selects, rowQR, encode, encodeQ_masked, Instr.opcode]; decide⟩

theorem dround : Statement .dround := ⟨rfl, opcodeTable[1], by simp [opcodeTable], rfl, rfl⟩
theorem binit : Statement .binit := ⟨rfl, opcodeTable[2], by simp [opcodeTable], rfl, rfl⟩
theorem bfinal : Statement .bfinal := ⟨rfl, opcodeTable[3], by simp [opcodeTable], rfl, rfl⟩
theorem block : Statement .block := ⟨rfl, opcodeTable[4], by simp [opcodeTable], rfl, rfl⟩
theorem stream : Statement .stream := ⟨rfl, opcodeTable[5], by simp [opcodeTable], rfl, rfl⟩
theorem macKey : Statement .macKey := ⟨rfl, opcodeTable[6], by simp [opcodeTable], rfl, rfl⟩
theorem macClear : Statement .macClear := ⟨rfl, opcodeTable[7], by simp [opcodeTable], rfl, rfl⟩
theorem macBlock : Statement .macBlock := ⟨rfl, opcodeTable[8], by simp [opcodeTable], rfl, rfl⟩
theorem macFinal : Statement .macFinal := ⟨rfl, opcodeTable[9], by simp [opcodeTable], rfl, rfl⟩
theorem macTag : Statement .macTag := ⟨rfl, opcodeTable[10], by simp [opcodeTable], rfl, rfl⟩
theorem aeadSeal : Statement .aeadSeal := ⟨rfl, opcodeTable[11], by simp [opcodeTable], rfl, rfl⟩
theorem aeadOpen : Statement .aeadOpen := ⟨rfl, opcodeTable[12], by simp [opcodeTable], rfl, rfl⟩

end Sys2Proof.Laws.EncodingRow
end

