-- ==== Sys2Proof/Laws/QuarterRound.lean ====
section
/-! SUPPORT. The quarter-round pipeline register by register. -/

namespace Sys2Proof.Machine

/-- One register after a write of another or the same. -/
theorem RegFile.getElem_set (w : RegFile) (p i : Fin 16) (v : Word) :
    (w.set p v)[i] = if i = p then v else w[i] := by
  simp only [Fin.getElem_fin, Vector.getElem_set, Fin.ext_iff, eq_comm]

/-- A stage leaves every register but p and r as it was (40 R100). -/
theorem arx_other (p q r i : Fin 16) (n : Nat) (w : RegFile) (hp : i ≠ p) (hr : i ≠ r) :
    (arx p q r n w)[i] = w[i] := by
  simp only [arx, RegFile.getElem_set, if_neg hp, if_neg hr]

/-- A quarter-round leaves every register it does not name as it was (40 R102). -/
theorem quarter_other (a b c d i : Fin 16) (w : RegFile) (ha : i ≠ a) (hb : i ≠ b) (hc : i ≠ c)
    (hd : i ≠ d) : (quarter a b c d w)[i] = w[i] := by
  simp only [quarter, arx_other _ _ _ _ _ _ hc hb, arx_other _ _ _ _ _ _ ha hd]

/-- Double-rounds one after another. -/
theorem doubleRounds_add (j k : Nat) (w : RegFile) :
    doubleRounds (j + k) w = doubleRounds k (doubleRounds j w) := by
  induction j generalizing w with
  | zero => simp [doubleRounds]
  | succ j ih => rw [Nat.add_right_comm, doubleRounds, ih, doubleRounds]

end Sys2Proof.Machine
end

