-- ==== Sys2Proof/Tests/Slice0.lean ====
section
/-! SUPPORT. Tests of the model: ill-formed terms refused, words written out from 30_encoding, one step per command
against the vectors of 95_test_vectors.md (hand-derived by the spec), and for each statement with hypotheses a
concrete state that meets them. -/

namespace Sys2Proof.Tests

open Sys2Proof.Machine Sys2Proof.Claims

set_option Elab.async false

/-! ### Ill-formed terms (Sys2Proof/WellFormed.lean) -/

theorem test_qr_first_operand_16 : Instr.qrOf 16 0 0 0 = none := by decide
theorem test_qr_second_operand_16 : Instr.qrOf 0 16 0 0 = none := by decide
theorem test_qr_third_operand_16 : Instr.qrOf 0 0 16 0 = none := by decide
theorem test_qr_fourth_operand_16 : Instr.qrOf 0 0 0 16 = none := by decide
theorem test_qr_operands_15 : Instr.qrOf 15 15 0 15 = some (.qr 15 15 0 15) := by decide
theorem test_blocksteps_zero : Pseudo.wf (.blocksteps 0) = false ∧ Pseudo.wf (.blocksteps 1) = true := by decide
theorem test_access_misaligned :
    HostAccess.wf 0x400 (.regRead 0x002) = false ∧ HostAccess.wf 0x400 (.regWrite 0x041 0#32) = false := by decide
theorem test_access_above_window :
    HostAccess.wf 0x400 (.regRead 0x1000) = false ∧ HostAccess.wf 0x400 (.regWrite 0xFFC 0#32) = true := by decide
theorem test_access_narrow : HostAccess.wf 0x400 (.regOddWidth 16 0x000) = false := by decide
theorem test_access_above_mem :
    HostAccess.wf 0x400 (.memWrite 0x400 0#8) = false ∧ HostAccess.wf 0x400 (.memRead 0x400) = false ∧
      HostAccess.wf 0x400 (.memRead 0x3FF) = true := by decide
theorem test_parameters_outside_the_spec :
    Config.wf { memSize := 0, clampMask := 0#128 } = false ∧
      Config.wf { memSize := 2 ^ 32 + 1, clampMask := 0#128 } = false ∧
      Config.wf { memSize := 1, clampMask := 1#128 <<< 31 } = false := by decide

/-! ### Decoding: each word written out from 30_encoding R81, R82, R84, R89 -/

theorem test_decode_qr : decode 0b00000000110010000100000000000001#32 = .ok (.qr 0 4 8 12) := by decide
theorem test_decode_qr_order : decode 0b00000000010000110010000100000001#32 = .ok (.qr 1 2 3 4) := by decide
theorem test_decode_dround : decode 0b00000000000000000000000000000010#32 = .ok .dround := by decide
theorem test_decode_binit : decode 0b00000000000000000000000000000011#32 = .ok .binit := by decide
theorem test_decode_bfinal : decode 0b00000000000000000000000000000100#32 = .ok .bfinal := by decide
theorem test_decode_block : decode 0b00000000000000000000000000000101#32 = .ok .block := by decide
theorem test_decode_stream : decode 0b00000000000000000000000000010000#32 = .ok .stream := by decide
theorem test_decode_macKey : decode 0b00000000000000000000000000100000#32 = .ok .macKey := by decide
theorem test_decode_macClear : decode 0b00000000000000000000000000100001#32 = .ok .macClear := by decide
theorem test_decode_macBlock : decode 0b00000000000000000000000000100010#32 = .ok .macBlock := by decide
theorem test_decode_macFinal : decode 0b00000000000000000000000000100011#32 = .ok .macFinal := by decide
theorem test_decode_macTag : decode 0b00000000000000000000000000100100#32 = .ok .macTag := by decide
theorem test_decode_aeadSeal : decode 0b00000000000000000000000000110000#32 = .ok .aeadSeal := by decide
theorem test_decode_aeadOpen : decode 0b00000000000000000000000000110001#32 = .ok .aeadOpen := by decide
theorem test_decode_unknown :
    decode 0x00000000#32 = .error .unknownOpcode ∧ decode 0x000000FF#32 = .error .unknownOpcode ∧
      decode 0x00000006#32 = .error .unknownOpcode ∧ decode 0x00000032#32 = .error .unknownOpcode := by decide
theorem test_decode_reserved_bits :
    decode 0x01000001#32 = .error .reservedBits ∧ decode 0x80C84001#32 = .error .reservedBits ∧
      decode 0x00000102#32 = .error .reservedBits ∧ decode 0x80000031#32 = .error .reservedBits := by decide
theorem test_table_word :
    decodeTableWord 32 0x00C84001 = some (.qr 0 4 8 12) ∧ decodeTableWord 8 0x31 = some .aeadOpen ∧
      decodeTableWord 32 0x01000001 = none := by decide
theorem test_fetched_word_runs :
    (match step (State.reset.withFetchWord 32 0x00000021) with
      | .next t => t.pending == [] && t.status.err == 0#4
      | .fault _ => false
      | .refused _ => false) = true := by decide

/-! ### States to test on (95_test_vectors.md, SETUP) -/

/-- The bytes 0x00, 0x01, … -/
def counting (n : Nat) : List Byte := (List.range n).map (BitVec.ofNat 8)

/-- The §8 nonce. -/
def nonce8 : List Byte := [0#8, 0#8, 0#8, 9#8, 0#8, 0#8, 0#8, 0x4A#8, 0#8, 0#8, 0#8, 0#8]

/-- After SETUP, with `input` at 0x040, output at 0x100 and the tag at 0x200. -/
def ready (input : List Byte) : State :=
  { State.reset with
    mem := Memory.writeBytes (Memory.writeBytes (Memory.writeBytes [] 0x000 (counting 32)) 0x020 nonce8) 0x040 input
    KEY_LEN := 32#32, NONCE_ADDR := 0x020#32, NONCE_LEN := 12#32, IN_ADDR := 0x040#32,
    IN_LEN := BitVec.ofNat 32 input.length, OUT_ADDR := 0x100#32, TAG_ADDR := 0x200#32, TAG_LEN := 16#32 }

/-- "Hello". -/
def hello : List Byte := [0x48#8, 0x65#8, 0x6C#8, 0x6C#8, 0x6F#8]

/-- "abc". -/
def abc : List Byte := [0x61#8, 0x62#8, 0x63#8]

/-- "Hello" sealed, and its tag (V19). -/
def helloSealed : List Byte := [0xC2#8, 0xB9#8, 0xFD#8, 0x91#8, 0xF0#8]
def helloTag : List Byte :=
  [0xBA#8, 0xC5#8, 0x12#8, 0x4B#8, 0xFB#8, 0xD3#8, 0xD2#8, 0xD1#8, 0xD0#8, 0xCF#8, 0xCE#8, 0xCD#8, 0xCC#8,
   0xCB#8, 0xCA#8, 0xC9#8]

/-- `s` with `bytes` at 0x200. -/
def withTag (bytes : List Byte) (s : State) : State := s.writeBytes 0x200 bytes

/-- `ready` with the key of MAC_KEY loaded (V12). -/
def keyed (input : List Byte) : State :=
  { ready input with
    R := 0x0f0e0d0c0b0a09080706050403020100#128, S := 0x1f1e1d1c1b1a19181716151413121110#128 }

/-- Sixteen words by index. -/
def words (f : Nat → Nat) : RegFile := Vector.ofFn fun i => BitVec.ofNat 32 (f i.val)

/-- The state after a command, seen through `f`. -/
def seen {α : Type} (f : State → α) (i : Instr) (s : State) : Option α :=
  match exec i s with
  | .next t => some (f t)
  | .fault _ => none
  | .refused _ => none

/-- The 32-bit value of STATUS. -/
def statusWord (t : State) : Word := t.status.word

/-! ### One step per command -/

/-- V1. -/
theorem test_qr :
    seen (fun t => [t.W[0], t.W[1], t.W[2], t.W[3]]) (.qr 0 1 2 3)
        { State.reset with W := #v[0x11111111#32, 0x01020304#32, 0x9b8d6f43#32, 0x01234567#32, 0#32, 0#32, 0#32,
          0#32, 0#32, 0#32, 0#32, 0#32, 0#32, 0#32, 0#32, 0#32] } =
      some [0xea2a92f4#32, 0xcb1cf8ce#32, 0x4581472e#32, 0x5881c4bb#32] := by decide +kernel

/-- V2, the row a = d. -/
theorem test_qr_repeated_index :
    seen (fun t => [t.W[0], t.W[1], t.W[2], t.W[3]]) (.qr 0 1 2 0) { State.reset with W := words id } =
      some [0#32, 0x00180100#32, 2#32, 3#32] := by decide +kernel

/-- V5, the row W[k] = k. -/
theorem test_dround :
    seen (fun t => [t.W[0], t.W[5], t.W[10], t.W[15]]) .dround { State.reset with W := words id } =
      some [0xa9295c6a#32, 0x7b44627b#32, 0xb5b3b74d#32, 0x983c4ebf#32] := by decide +kernel

/-- V6, V8: X of the §8 input. -/
theorem test_binit :
    seen (fun t => ([t.X[0], t.X[4], t.X[11], t.X[12], t.X[13], t.X[14]], t.W == t.X)) .binit
        { ready [] with BASE_CTR := 1#32 } =
      some ([0x61707865#32, 0x03020100#32, 0x1f1e1d1c#32, 1#32, 0x09000000#32, 0x4a000000#32], true) := by
  decide +kernel

/-- V8: the counter wraps. -/
theorem test_binit_counter_wraps :
    seen (fun t => t.X[12]) .binit { ready [] with BASE_CTR := 0xffffffff#32, BLK_IDX := 1#32 } =
      some 0#32 := by decide +kernel

/-- V8: the sums wrap. -/
theorem test_bfinal :
    seen (fun t => t.KS) .bfinal
        { State.reset with X := RegFile.fill 0x80000000#32, W := RegFile.fill 0x80000000#32 } =
      some (RegFile.fill 0#32) := by decide +kernel

/-- V7, the row of ROUNDS = 2. -/
theorem test_block :
    seen (fun t => (ser t.KS).take 8) .block { ready [] with BASE_CTR := 1#32, ROUNDS := 2#8 } =
      some [0x7c#8, 0x61#8, 0xc3#8, 0x2e#8, 0x22#8, 0x68#8, 0xcb#8, 0xb8#8] := by decide +kernel

/-- V22, row 4. -/
theorem test_block_odd_rounds :
    seen statusWord .block { ready [] with ROUNDS := 7#8 } = some 0x00010007#32 := by decide +kernel

/-- V9, the row "Hello". -/
theorem test_stream :
    seen (fun t => t.readBuffer { addr := 0x100, len := 5 }) .stream { ready hello with BASE_CTR := 1#32 } =
      some [0x58#8, 0x94#8, 0x8b#8, 0x88#8, 0xbe#8] := by decide +kernel

/-- V12. -/
theorem test_macKey :
    seen (fun t => (t.R, t.S, t.ACC)) .macKey { ready [] with ACC := 5#130 } =
      some (0x0f0e0d0c0b0a09080706050403020100#128, 0x1f1e1d1c1b1a19181716151413121110#128, 0#130) := by
  decide +kernel

/-- V12, the second row: the clamp. -/
theorem test_macKey_clamps :
    seen (fun t => t.R) .macKey ((ready []).writeBytes 0x000 (List.replicate 16 0xFF#8)) =
      some 0x0ffffffc0ffffffc0ffffffc0fffffff#128 := by decide +kernel

/-- 43_poly1305 R174. -/
theorem test_macClear :
    seen (fun t => (t.ACC, t.S)) .macClear { keyed [] with ACC := 7#130 } =
      some (0#130, 0x1f1e1d1c1b1a19181716151413121110#128) := by decide +kernel

/-- V14, the first row. -/
theorem test_macBlock :
    seen (fun t => t.ACC) .macBlock (keyed abc) = some 0x12d04dcb48c643c13ebc39b734b3e80d5#130 := by
  decide +kernel

/-- V13, the row 16 × 00: a full block has no marker. -/
theorem test_macBlock_full :
    seen (fun t => t.ACC) .macBlock (keyed (List.replicate 16 0#8)) = some 0#130 := by decide +kernel

/-- V17: the sum is reduced mod P. -/
theorem test_macFinal :
    seen (fun t => (t.ACC, t.TAG)) .macFinal
        { State.reset with ACC := 0x30ad6a26e3a05d19d693500ccac37c34f#130, S := BitVec.allOnes 128 } =
      some (0xad6a26e3a05d19d693500ccac37c353#130, 0x0ad6a26e3a05d19d693500ccac37c353#128) := by
  decide +kernel

/-- V15. -/
theorem test_macTag :
    seen (fun t => (t.ACC, (t.readBuffer { addr := 0x200, len := 16 }).take 4)) .macTag (keyed abc) =
      some (0x14c22f9d0a77e552c02d9b0875e5091e5#130, [0xe5#8, 0x91#8, 0x50#8, 0x5e#8]) := by decide +kernel

/-- V13, the row of 17 bytes: a full block and a short one. -/
theorem test_macTag_two_blocks :
    seen (fun t => t.ACC) .macTag (keyed (counting 17)) =
      some 0x2b2cbfd385a19fa37ba031f9658b238ce#130 := by decide +kernel

/-- V19, the row "Hello". -/
theorem test_aeadSeal :
    seen (fun t => (t.readBuffer { addr := 0x100, len := 5 }, t.readBuffer { addr := 0x200, len := 16 }, statusWord t))
        .aeadSeal (ready hello) =
      some (helloSealed, helloTag, 0x00000040#32) := by decide +kernel

/-- V20. -/
theorem test_aeadOpen :
    seen (fun t => (t.readBuffer { addr := 0x100, len := 5 }, statusWord t)) .aeadOpen
        (withTag helloTag (ready helloSealed)) =
      some (hello, 0x00000040#32) := by decide +kernel

/-- V21, the row of the plaintext itself: ERR = 4, PHASE = TAG, and nothing written. -/
theorem test_aeadOpen_tampered :
    seen (fun t => (t.mem == (withTag helloTag (ready hello)).mem, statusWord t)) .aeadOpen
        (withTag helloTag (ready hello)) =
      some (true, 0x00010024#32) := by decide +kernel

/-- V22, rows 11 and 12 as rules R30, R32 and R33 give them (log 13). -/
theorem test_clear_errSeen :
    (match step { State.reset with
        status := { err := 5#4, phase := 1#3, errSeen := true }, pending := [.regWrite 0x004 0x00010000#32] } with
      | .next t => some (statusWord t)
      | .fault _ => none
      | .refused _ => none) = some 0x00000015#32 := by decide +kernel

/-! ### The hypotheses of the statements are met: encoding -/

theorem test_meets_EncodeOfDecode : decode 0x00FFFF01#32 = .ok (.qr 15 15 15 15) := by decide

theorem test_meets_WordDecodesByItsOneRow :
    (rowQR ∈ opcodeTable ∧ 0x00FFFF01#32 &&& rowQR.mask = rowQR.pattern) ∧
      ∀ r ∈ opcodeTable, 0x01000001#32 &&& r.mask ≠ r.pattern :=
  ⟨⟨List.mem_cons_self, by decide⟩, by decide⟩

/-- The premise of IllegalWordWritesOnlyStatus, ErrSeenIsSticky, FirstFailedCheckIsRaised and
PhaseAtTheEndOfSealAndOpen, one word for each way of being illegal and at the edges; and no legal word meets it. -/
theorem test_meets_illegal :
    illegal 0x00000000#32 ∧ illegal 0x00000006#32 ∧ illegal 0x000000FF#32 ∧ illegal 0x01000001#32 ∧
      illegal 0x80000001#32 ∧ illegal 0x00000102#32 ∧ illegal 0x80000031#32 ∧ ¬illegal 0x00FFFF01#32 ∧
      ¬illegal 0x00000031#32 :=
  ⟨by decide, by decide, by decide, by decide, by decide, by decide, by decide, by decide, by decide⟩

theorem test_meets_StepRunsDecodedCommand : decode 0x00000031#32 = .ok .aeadOpen := by decide

theorem test_meets_IdleStepChangesNothing : State.reset.pending = [] := by decide

/-! ### The register window and MEM -/

theorem test_meets_KeystreamWindow : 0 < 64 ∧ 63 < 64 := by decide

theorem test_meets_MacRegisterWindow : 3 < 4 ∧ macKeyErr (ready abc) = 0#4 ∧ macTagErr (keyed abc) = 0#4 := by
  decide +kernel

theorem test_meets_reservedOffset :
    reservedOffset 0x038 ∧ reservedOffset 0x03C ∧ reservedOffset 0x134 ∧ reservedOffset 0x13C ∧
      reservedOffset 0x150 ∧ reservedOffset 0xFFC ∧ ¬reservedOffset 0x130 ∧ ¬reservedOffset 0x140 := by decide

theorem test_meets_readOnlyOffset :
    readOnlyOffset 0x0C0 ∧ readOnlyOffset 0x0FC ∧ readOnlyOffset 0x100 ∧ readOnlyOffset 0x130 ∧
      readOnlyOffset 0x140 ∧ readOnlyOffset 0x14C ∧ ¬readOnlyOffset 0x0BC ∧ ¬readOnlyOffset 0x134 := by decide

theorem test_meets_status_write_without_bit_16 : (0xFFFEFFFF#32).getLsbD 16 = false := by decide

theorem test_meets_HostWriteSetsOneByte : 0x3FF < State.reset.cfg.memSize := by decide

theorem test_meets_HostReadReturnsByte : 0x000 < State.reset.cfg.memSize := by decide

theorem test_meets_OutsideAccessIsRefused :
    outside 0x400 (.regWrite 0x002 0#32) ∧ outside 0x400 (.regRead 0x1000) ∧ outside 0x400 (.regOddWidth 8 0x000) ∧
      outside 0x400 (.memWrite 0x400 0#8) ∧ outside 0x400 (.memRead 0x400) ∧
      ¬outside 0x400 (.regWrite 0xFFC 0#32) ∧ ¬outside 0x400 (.regRead 0x000) ∧ ¬outside 0x400 (.memWrite 0x3FF 0#8) ∧
      ¬outside 0x400 (.memRead 0x3FF) ∧ ¬outside 0x400 .reset := by simp [outside]

/-- A run with every kind of access. -/
def run1 : State :=
  { State.reset with
    pending := [.memWrite 0x000 1#8, .memRead 0x000, .regWrite 0x000 0x00000021#32, .regRead 0x004, .reset] }

theorem test_meets_AdmittedRunEnds : run1.Admitted := by
  show run1.pending.all _ = true
  decide

theorem test_meets_AdmittedStepUsesOneAccess :
    run1.pending = .memWrite 0x000 1#8 :: run1.pending.tail ∧ run1.Admitted :=
  ⟨rfl, test_meets_AdmittedRunEnds⟩

/-! ### Errors -/

theorem test_meets_FailedCommandChangesOnlyStatus :
    errOf .block State.reset ≠ 0#4 ∧ ¬isAead .block ∧ errOf .aeadOpen State.reset ≠ 0#4 := by decide +kernel

theorem test_meets_PhaseAtTheEndOfSealAndOpen : isAead .aeadSeal ∧ isAead .aeadOpen ∧ ¬isAead .stream := by decide

theorem test_meets_ParametersNeverChange : ∃ t, step run1 = .next t := ⟨_, rfl⟩

/-! ### The quarter-round pipeline and the block function -/

theorem test_meets_DoubleRoundIsColumnThenDiagonal :
    [Instr.qr 1 5 9 13, .qr 0 4 8 12, .qr 2 6 10 14, .qr 3 7 11 15].Perm Pseudo.cround.expand ∧
      [Instr.qr 1 6 11 12, .qr 0 5 10 15, .qr 2 7 8 13, .qr 3 4 9 14].Perm Pseudo.diaground.expand ∧
      Instr.qr 3 7 11 15 ∈ Pseudo.cround.expand ∧ Instr.qr 3 4 9 14 ∈ Pseudo.diaground.expand := by decide

theorem test_meets_QuarterRoundIsBijective :
    ([0, 4, 8, 12] : List (Fin 16)).Nodup ∧ (15 : Fin 16) ∉ ([0, 4, 8, 12] : List (Fin 16)) := by decide

theorem test_meets_BinitBuildsInitialState :
    binitErr (ready []) = 0#4 ∧ binitErr { ready [] with KEY_LEN := 31#32 } = 1#4 ∧
      binitErr { ready [] with NONCE_LEN := 13#32 } = 2#4 ∧ binitErr { ready [] with KEY_ADDR := 0x3E0#32 } = 0#4 ∧
      binitErr { ready [] with KEY_ADDR := 0x3E1#32 } = 5#4 ∧
      binitErr { ready [] with NONCE_ADDR := 0xFFFFFFFF#32 } = 5#4 := by decide +kernel

theorem test_meets_BlockComputesKeystreamBlock :
    blockErr (ready []) = 0#4 ∧ blockErr { ready [] with KEY_LEN := 0#32 } = 1#4 ∧
      blockErr { ready [] with NONCE_LEN := 0#32 } = 2#4 ∧ blockErr { ready [] with ROUNDS := 0#8 } = 7#4 ∧
      blockErr { ready [] with ROUNDS := 255#8 } = 7#4 ∧ blockErr { ready [] with ROUNDS := 254#8 } = 0#4 ∧
      blockErr { ready [] with KEY_ADDR := 0x3F0#32 } = 5#4 := by decide +kernel

theorem test_meets_BlockStepsEqualBlock :
    (1 ≤ 127 ∧ 127 ≤ 127 ∧ (254#8 = BitVec.ofNat 8 (2 * 127)) ∧ blockErr { ready [] with ROUNDS := 254#8 } = 0#4) ∧
      ((20#8 = BitVec.ofNat 8 (2 * 10)) ∧ (ready []).ROUNDS = 20#8 ∧ blockErr (ready []) = 0#4) ∧
      blockErr { ready [] with ROUNDS := 7#8 } = 7#4 ∧ binitErr { ready [] with ROUNDS := 7#8 } = 0#4 := by
  decide +kernel

theorem test_meets_StreamXorsKeystream :
    streamErr (ready hello) = 0#4 ∧ streamErr (ready []) = 0#4 ∧
      streamErr { ready hello with KEY_LEN := 33#32 } = 1#4 ∧ streamErr { ready hello with NONCE_LEN := 11#32 } = 2#4 ∧
      streamErr { ready hello with ROUNDS := 1#8 } = 7#4 ∧ streamErr { ready hello with IN_ADDR := 0x3FC#32 } = 5#4 ∧
      streamErr { ready hello with OUT_ADDR := 0x3FC#32 } = 5#4 ∧
      streamErr { ready hello with OUT_ADDR := 0x3FB#32 } = 0#4 ∧
      streamErr { ready [] with IN_ADDR := 0x400#32 } = 0#4 ∧ streamErr { ready [] with IN_ADDR := 0x401#32 } = 5#4 := by
  decide +kernel

/-! ### The MAC engine -/

theorem test_meets_MacKeyLoadsKey :
    macKeyErr (ready []) = 0#4 ∧ macKeyErr { ready [] with KEY_LEN := 16#32 } = 1#4 ∧
      macKeyErr { ready [] with KEY_ADDR := 0x3E1#32 } = 5#4 := by decide +kernel

theorem test_meets_MacBlockFoldsOneBlock :
    macBlockErr { ready [] with IN_LEN := 0#32 } = 5#4 ∧ macBlockErr { ready [] with IN_LEN := 1#32 } = 0#4 ∧
      macBlockErr { ready [] with IN_LEN := 16#32 } = 0#4 ∧ macBlockErr { ready [] with IN_LEN := 17#32 } = 5#4 ∧
      macBlockErr { ready abc with IN_ADDR := 0x3FE#32 } = 5#4 := by decide +kernel

theorem test_meets_MacTagFoldsWholeMessage :
    macTagErr (keyed abc) = 0#4 ∧ macTagErr (keyed []) = 0#4 ∧ macTagErr { keyed abc with IN_ADDR := 0x3FE#32 } = 5#4 ∧
      macTagErr { keyed abc with TAG_ADDR := 0x3F1#32 } = 5#4 ∧ macTagErr { keyed abc with TAG_ADDR := 0x3F0#32 } = 0#4 := by
  decide +kernel

theorem test_meets_BlockwiseMacEqualsMacTag :
    (keyed (counting 17)).cfg.wf = true ∧ macTagErr (keyed (counting 17)) = 0#4 := by decide +kernel

theorem test_meets_EmptyAndZeroMessagesTagAsSecret :
    macTagErr (keyed (List.replicate 16 0#8)) = 0#4 ∧ (keyed (List.replicate 16 0#8)).ACC = 0#130 ∧
      (keyed (List.replicate 16 0#8)).IN_LEN.toNat % 16 = 0 ∧
      ∀ j, j < (keyed (List.replicate 16 0#8)).IN_LEN.toNat → inByte (keyed (List.replicate 16 0#8)) j = 0#8 := by
  decide +kernel

theorem test_meets_EmptyMessage :
    macTagErr (keyed []) = 0#4 ∧ (keyed []).ACC = 0#130 ∧ (keyed []).IN_LEN.toNat = 0 := by decide +kernel

/-! ### The AEAD orchestrator -/

theorem test_meets_SealEncryptsAndTags :
    sealErr (ready hello) = 0#4 ∧ sealErr { ready hello with KEY_LEN := 0#32 } = 1#4 ∧
      sealErr { ready hello with NONCE_LEN := 11#32 } = 2#4 ∧ sealErr { ready hello with TAG_ADDR := 0x3F1#32 } = 5#4 ∧
      sealErr { ready hello with TAG_LEN := 0#32, ROUNDS := 7#8 } = 0#4 := by decide +kernel

theorem test_meets_OpenVerifiesThenDecrypts :
    openErr (withTag helloTag (ready helloSealed)) = 0#4 ∧
      openErr { ready hello with KEY_LEN := 0#32, NONCE_LEN := 0#32, TAG_LEN := 0#32 } = 1#4 ∧
      openErr { ready hello with NONCE_LEN := 0#32, TAG_LEN := 0#32 } = 2#4 ∧
      openErr { ready hello with TAG_LEN := 15#32 } = 3#4 ∧ openErr (withTag helloTag (ready hello)) = 4#4 ∧
      openErr { ready hello with OUT_ADDR := 0x400#32 } = 5#4 := by decide +kernel

/-- Where SEAL ends from `ready hello`, its tag buffer apart from its output. -/
def sealedHello : State :=
  { ready hello with
    mem := Memory.writeBytes (Memory.writeBytes (ready hello).mem 0x100 (ready hello).sealed) 0x200
      (macFresh (ready hello).cfg.clampMask (ready hello).key (ready hello).sealed)
    status := doneStatus (ready hello) }

/-- Where OPEN then runs: the ciphertext and the tag in the buffers SEAL wrote. -/
def toOpen : State := { sealedHello with IN_ADDR := 0x100#32, OUT_ADDR := 0x180#32 }

theorem test_meets_SealThenOpenRestoresPlaintext :
    exec .aeadSeal (ready hello) = .next sealedHello ∧ sealErr (ready hello) = 0#4 ∧
      toOpen.cfg = (ready hello).cfg ∧ toOpen.KEY_LEN = 32#32 ∧ toOpen.NONCE_LEN = 12#32 ∧ toOpen.TAG_LEN = 16#32 ∧
      toOpen.IN_LEN = (ready hello).IN_LEN ∧ aeadFits toOpen ∧
      (∀ i, i < 32 → toOpen.readByte (toOpen.KEY_ADDR.toNat + i) =
        (ready hello).readByte ((ready hello).KEY_ADDR.toNat + i)) ∧
      (∀ i, i < 12 → toOpen.readByte (toOpen.NONCE_ADDR.toNat + i) =
        (ready hello).readByte ((ready hello).NONCE_ADDR.toNat + i)) ∧
      (∀ j, j < (ready hello).IN_LEN.toNat →
        some (inByte toOpen j) =
          if inside (ready hello).TAG_ADDR.toNat 16 ((ready hello).OUT_ADDR.toNat + j) then (ready hello).sealed[j]?
          else some (sealedHello.readByte ((ready hello).OUT_ADDR.toNat + j))) ∧
      (∀ i, i < 16 → toOpen.readByte (toOpen.TAG_ADDR.toNat + i) =
        sealedHello.readByte ((ready hello).TAG_ADDR.toNat + i)) := by
  exact ⟨rfl, by decide +kernel, rfl, rfl, rfl, rfl, rfl, by decide, by decide +kernel, by decide +kernel,
    by decide +kernel, by decide +kernel⟩

/-- `ready hello` with the tag written over all of the output: SEAL's ciphertext is overwritten. -/
def overlapping : State := { ready hello with TAG_ADDR := 0x100#32 }

/-- The other clause of the premise on the ciphertext, at both edges of the output. -/
theorem test_meets_SealThenOpen_overlapped :
    sealErr overlapping = 0#4 ∧ aeadFits (withTag helloTag (ready helloSealed)) ∧
      inside overlapping.TAG_ADDR.toNat 16 (overlapping.OUT_ADDR.toNat + 0) ∧
      inside overlapping.TAG_ADDR.toNat 16 (overlapping.OUT_ADDR.toNat + 4) ∧
      (∀ j, j < overlapping.IN_LEN.toNat →
        some (inByte (withTag helloTag (ready helloSealed)) j) = overlapping.sealed[j]?) ∧
      seen (fun t => t.readBuffer { addr := 0x100, len := 16 }) .aeadSeal overlapping = some helloTag := by
  decide +kernel

theorem test_meets_FreshTagIsKeyThenTag : macKeyErr (ready abc) = 0#4 ∧ macTagErr (ready abc) = 0#4 := by
  decide +kernel

/-! ### The invariant -/

theorem test_meets_EveryStepKeepsInvariant : run1.Inv ∧ ∃ t, step run1 = .next t :=
  ⟨⟨by decide, by decide, by decide, by decide, by decide, by decide, by decide⟩, ⟨_, rfl⟩⟩

end Sys2Proof.Tests
end

section
/-! PROOFS. What a command may write and what every command leaves, said once for all thirteen (10_state R20 to
R27, R34 to R37), and what one step can do. -/

namespace Sys2Proof.Machine

open Sys2Proof.Claims

/-! ### What a command writes -/

/-- `t` differs from `s` at most in what the spec lets command `i` write, STATUS apart: which registers and MEM
(10_state R20 to R27), and nothing else at all (`frame`). -/
structure WritesOnly (i : Instr) (s t : State) : Prop where
  W : t.W = s.W ∨ (∃ a b c d, i = .qr a b c d) ∨ i = .dround ∨ i = .binit ∨ i = .block
  X : t.X = s.X ∨ i = .binit ∨ i = .block
  KS : t.KS = s.KS ∨ i = .bfinal ∨ i = .block
  R : t.R = s.R ∨ i = .macKey
  S : t.S = s.S ∨ i = .macKey
  ACC : t.ACC = s.ACC ∨ i = .macKey ∨ i = .macClear ∨ i = .macBlock ∨ i = .macFinal ∨ i = .macTag
  TAG : t.TAG = s.TAG ∨ i = .macFinal ∨ i = .macTag
  mem : t.mem = s.mem ∨ i = .stream ∨ i = .macTag ∨ i = .aeadSeal ∨ i = .aeadOpen
  frame : t = { s with W := t.W, X := t.X, KS := t.KS, R := t.R, S := t.S, ACC := t.ACC, TAG := t.TAG,
                       status := t.status, mem := t.mem }

namespace WritesOnly

/-- A command that writes nothing. -/
theorem unchanged (i : Instr) (s : State) : WritesOnly i s s where
  W := .inl rfl
  X := .inl rfl
  KS := .inl rfl
  R := .inl rfl
  S := .inl rfl
  ACC := .inl rfl
  TAG := .inl rfl
  mem := .inl rfl
  frame := rfl

/-- STATUS is free. -/
theorem withStatus {i : Instr} {s t : State} (h : WritesOnly i s t) (st : Status) :
    WritesOnly i s { t with status := st } :=
  { h with frame := congrArg (fun u : State => { u with status := st }) h.frame }

/-- The end of a command adds only a write of STATUS to its effect. -/
theorem command {i : Instr} {s effect : State} (failure : Option ErrorKind) (h : WritesOnly i s effect) :
    WritesOnly i s (s.command failure effect) := by
  cases failure with
  | none => exact h.withStatus _
  | some e => exact (unchanged i s).withStatus _

/-- The end of SEAL or OPEN adds only writes of STATUS to its effect. -/
theorem aeadCommand {i : Instr} {s effect : State} (failure : Option ErrorKind) (h : WritesOnly i s effect) :
    WritesOnly i s (s.aeadCommand failure effect) := by
  cases failure with
  | none => exact (h.withStatus _).withStatus _
  | some e => exact ((unchanged i s).withStatus _).withStatus _

/-- A MemWrite of one of the commands that store. -/
theorem writeBytes {i : Instr} {s t : State} (h : WritesOnly i s t)
    (hi : i = .stream ∨ i = .macTag ∨ i = .aeadSeal ∨ i = .aeadOpen) (a : Nat) (bs : List Byte) :
    WritesOnly i s (t.writeBytes a bs) :=
  { h with
    mem := .inr hi
    frame := congrArg (fun u : State => { u with mem := t.mem.writeBytes a bs }) h.frame }

/-- The parameters and the seed are among what no command writes. -/
theorem cfg_memSeed {i : Instr} {s t : State} (h : WritesOnly i s t) : t.cfg = s.cfg ∧ t.memSeed = s.memSeed := by
  rw [h.frame]
  exact ⟨rfl, rfl⟩

end WritesOnly

/-- The shape of every command: the error its checks find, if any, and an effect that leaves STATUS alone and writes
only what the command may write, put together by `State.command`, or by `State.aeadCommand` for SEAL and OPEN. -/
theorem exec_ends (i : Instr) (s : State) : ∃ failure effect,
    (exec i s = .next (s.command failure effect) ∨ exec i s = .next (s.aeadCommand failure effect)) ∧
      effect.status = s.status ∧ WritesOnly i s effect := by
  have same := WritesOnly.unchanged i s
  cases i with
  | qr a b c d =>
    exact ⟨none, _, .inl rfl, rfl, { same with W := .inr (.inl ⟨a, b, c, d, rfl⟩), frame := rfl }⟩
  | dround => exact ⟨none, _, .inl rfl, rfl, { same with W := .inr (.inr (.inl rfl)), frame := rfl }⟩
  | binit =>
    exact ⟨_, _, .inl (exec_binit s), rfl,
      { same with W := .inr (.inr (.inr (.inl rfl))), X := .inr (.inl rfl), frame := rfl }⟩
  | bfinal => exact ⟨none, _, .inl rfl, rfl, { same with KS := .inr (.inl rfl), frame := rfl }⟩
  | block =>
    exact ⟨_, _, .inl (exec_block s), rfl,
      { same with W := .inr (.inr (.inr (.inr rfl))), X := .inr (.inr rfl), KS := .inr (.inr rfl), frame := rfl }⟩
  | stream => exact ⟨_, _, .inl (exec_stream s), s.writeBytes_status _ _, same.writeBytes (by simp) _ _⟩
  | macKey =>
    exact ⟨_, _, .inl (exec_macKey s), rfl,
      { same with R := .inr rfl, S := .inr rfl, ACC := .inr (.inl rfl), frame := rfl }⟩
  | macClear => exact ⟨none, s.setAcc 0, .inl rfl, rfl, { same with ACC := .inr (.inr (.inl rfl)), frame := rfl }⟩
  | macBlock =>
    exact ⟨_, _, .inl (exec_macBlock s), rfl, { same with ACC := .inr (.inr (.inr (.inl rfl))), frame := rfl }⟩
  | macFinal =>
    exact ⟨none, s.setAccTag (final s.ACC.toNat s.S.toNat), .inl rfl, rfl,
      { same with ACC := .inr (.inr (.inr (.inr (.inl rfl)))), TAG := .inr (.inl rfl), frame := rfl }⟩
  | macTag =>
    have hacc : WritesOnly .macTag s (s.setAccTag s.finalised) :=
      { same with ACC := .inr (.inr (.inr (.inr (.inr rfl)))), TAG := .inr (.inr rfl), frame := rfl }
    exact ⟨_, _, .inl (exec_macTag s), State.writeBytes_status _ _ _, hacc.writeBytes (by simp) _ _⟩
  | aeadSeal =>
    have houtput : WritesOnly .aeadSeal s (s.writeBytes s.outBuffer.addr s.sealed) := same.writeBytes (by simp) _ _
    exact ⟨_, _, .inr (exec_aeadSeal s), State.writeBytes_status _ _ _, houtput.writeBytes (by simp) _ _⟩
  | aeadOpen => exact ⟨_, _, .inr (exec_aeadOpen s), s.writeBytes_status _ _, same.writeBytes (by simp) _ _⟩

/-- Every command ends in a next state that differs only where the command may write. -/
theorem exec_writesOnly (i : Instr) (s : State) : ∃ t, exec i s = .next t ∧ WritesOnly i s t := by
  obtain ⟨failure, effect, hexec | hexec, -, hwrites⟩ := exec_ends i s
  · exact ⟨_, hexec, hwrites.command failure⟩
  · exact ⟨_, hexec, hwrites.aeadCommand failure⟩

/-- Every command sets ERRSEEN if it ends with ERR not 0 and leaves it otherwise (10_state R33): no effect touches
STATUS, and the end of a command writes ERRSEEN only with an error. -/
theorem exec_errSeen (i : Instr) (s : State) : ∃ t, exec i s = .next t ∧
    t.status.errSeen = if t.status.err = 0#4 then s.status.errSeen else true := by
  obtain ⟨failure, effect, hexec, hstatus, -⟩ := exec_ends i s
  cases failure with
  | none => rcases hexec with hexec | hexec <;> exact ⟨_, hexec, by simp [hstatus]⟩
  | some e => rcases hexec with hexec | hexec <;> exact ⟨_, hexec, by simp [e.code_ne_zero]⟩

/-! ### What one step can do -/

/-- A step whose next access runs a command is that command. -/
theorem step_next_run {s u : State} {access : HostAccess} {rest : List HostAccess} {i : Instr}
    (h : serveAccess access (after s rest) = .run i u) : step (next s access rest) = exec i u := by
  have hserve : nextAction (next s access rest) = .run i u := h
  simp only [step, hserve]

/-- A step whose next access is done at once has that outcome. -/
theorem step_next_done {s : State} {access : HostAccess} {rest : List HostAccess}
    {o : Host.Outcome State Fault Refusal} (h : serveAccess access (after s rest) = .done o) :
    step (next s access rest) = o := by
  have hserve : nextAction (next s access rest) = .done o := h
  simp only [step, hserve]

/-- Serving one access takes `s` to `t`: the commands, IllegalCommand, and what the other accesses do
(20_memory R66 to R69, 70_reset R240). -/
inductive Served (s : State) : State → Prop
  | command (i : Instr) (t : State) (h : exec i s = .next t) : Served s t
  | illegal : Served s (illegalCommand s)
  | register (r : RegName) (v : Word) : Served s (writeReg r v s)
  | read (value : HostValue) : Served s (s.returnValue value)
  | byte (a : Nat) (b : Byte) (h : a < s.cfg.memSize) : Served s (s.writeBytes a [b])
  | reset : Served s s.applyReset

/-- An access that runs a command runs it from the state it is served in. -/
theorem serveAccess_run {access : HostAccess} {s u : State} {i : Instr} (h : serveAccess access s = .run i u) :
    u = s := by
  cases access with
  | regWrite off v =>
    simp only [serveAccess] at h
    split at h
    · cases h
    · split at h
      · rw [issueCommand] at h
        split at h <;> cases h
        rfl
      · cases h
  | regRead off => simp only [serveAccess] at h; split at h <;> cases h
  | regOddWidth w off => cases h
  | memWrite a b => simp only [serveAccess] at h; split at h <;> cases h
  | memRead a => simp only [serveAccess] at h; split at h <;> cases h
  | reset => cases h

/-- An access that is done at once, with a next state, is one of the kinds of `Served`. -/
theorem serveAccess_next {access : HostAccess} {s t : State} (h : serveAccess access s = .done (.next t)) :
    Served s t := by
  cases access with
  | regWrite off v =>
    simp only [serveAccess] at h
    split at h
    · cases h
    · split at h
      · rw [issueCommand] at h
        split at h <;> cases h
        exact .illegal
      · cases h
        exact .register _ _
  | regRead off =>
    simp only [serveAccess] at h
    split at h <;> cases h
    exact .read _
  | regOddWidth w off => cases h
  | memWrite a b =>
    simp only [serveAccess] at h
    split at h <;> cases h
    exact .byte a b ‹_›
  | memRead a =>
    simp only [serveAccess] at h
    split at h <;> cases h
    exact .read _
  | reset => cases h; exact .reset

/-- A step is idle or serves the host's next access. -/
theorem step_served {s t : State} (h : step s = .next t) :
    (s.pending = [] ∧ t = s) ∨
      ∃ access rest, s.pending = access :: rest ∧ Served (s.withPending rest) t := by
  cases hp : s.pending with
  | nil =>
    rw [step_idle s hp] at h
    cases h
    exact .inl ⟨rfl, rfl⟩
  | cons access rest =>
    refine .inr ⟨access, rest, rfl, ?_⟩
    rw [step, nextAction_cons s access rest hp] at h
    split at h
    · next i u hserve =>
      rw [serveAccess_run hserve] at h
      exact .command i t h
    · next o hserve =>
      subst h
      exact serveAccess_next hserve

/-- Nothing an access does writes the parameters or the seed (10_state R48). -/
theorem Served.cfg_memSeed {s t : State} (h : Served s t) : t.cfg = s.cfg ∧ t.memSeed = s.memSeed := by
  cases h with
  | command i t h =>
    obtain ⟨u, hu, hwrites⟩ := exec_writesOnly i s
    cases h.symm.trans hu
    exact hwrites.cfg_memSeed
  | illegal => exact ⟨rfl, rfl⟩
  | register r v =>
    obtain ⟨-, hseed, hcfg, -, -⟩ := writeReg_frame r v s
    exact ⟨hcfg, hseed⟩
  | read value => exact ⟨rfl, rfl⟩
  | byte a b h => exact ⟨rfl, rfl⟩
  | reset => exact ⟨rfl, rfl⟩

/-! ### Illegal words -/

/-- The low byte of a word, by mask. -/
theorem toNat_and_255 (x : Word) : (x &&& 0xFF#32).toNat = x.toNat % 2 ^ 8 := by
  rw [BitVec.toNat_and]
  exact Nat.and_two_pow_sub_one_eq_mod _ 8

/-- Every row of the opcode map but QR's fixes the whole word, to a legal one (30_encoding R82, R84). -/
theorem opcodeTable_tail_legal :
    ∀ r ∈ opcodeTable.tail, r.mask = 0xFFFFFFFF#32 ∧ ¬illegal r.pattern := by
  decide

/-- A word that QR's row selects is legal: its opcode is 1 and its bits 31 to 24 are clear (30_encoding R81). -/
theorem not_illegal_of_rowQR {v : Word} (h : v &&& 0xFF0000FF#32 = 0x00000001#32) : ¬illegal v := by
  have hopcode : v &&& 0xFF#32 = 0x01#32 := by
    calc v &&& 0xFF#32 = (v &&& 0xFF0000FF#32) &&& 0xFF#32 := by rw [BitVec.and_assoc]; rfl
      _ = 0x01#32 := by rw [h]; rfl
  have hreserved : v >>> 24 = 0#32 := by
    calc v >>> 24 = v >>> 24 &&& 0xFF#32 := by
          apply BitVec.eq_of_toNat_eq
          have := v.isLt
          rw [toNat_and_255, BitVec.toNat_ushiftRight, Nat.shiftRight_eq_div_pow]
          omega
      _ = (v &&& 0xFF0000FF#32) >>> 24 := by rw [BitVec.ushiftRight_and_distrib]; rfl
      _ = 0#32 := by rw [h]; rfl
  simp [illegal, hopcode, hreserved]

/-- No row of the opcode map selects an illegal word (30_encoding R85, R86). -/
theorem not_illegal_of_selects {r : OpcodeRow} {v : Word} (hr : r ∈ opcodeTable) (h : r.selects v = true) :
    ¬illegal v := by
  have hmatch : v &&& r.mask = r.pattern := beq_iff_eq.1 h
  rcases List.mem_cons.1 hr with rfl | hr
  · exact not_illegal_of_rowQR hmatch
  · obtain ⟨hmask, hlegal⟩ := opcodeTable_tail_legal r hr
    have hv : v = r.pattern := by rw [← hmatch, hmask]; exact BitVec.and_allOnes.symm
    exact hv ▸ hlegal

/-- An illegal word does not decode (30_encoding R86). -/
theorem decode_illegal {v : Word} (h : illegal v) : ∃ e, decode v = .error e := by
  have hnone : opcodeTable.find? (fun r => r.selects v) = none :=
    List.find?_eq_none.2 fun r hr hs => not_illegal_of_selects hr hs h
  rw [decode, hnone]
  by_cases hk : opcodeKnown v = true
  · exact ⟨.reservedBits, if_pos hk⟩
  · exact ⟨.unknownOpcode, if_neg hk⟩

/-- A write of an illegal word to CMD takes IllegalCommand (60_exceptions R217). -/
theorem step_illegal (s : State) (rest : List HostAccess) {v : Word} (h : illegal v) :
    step (next s (.regWrite 0x000 v) rest) = .next ((after s rest).raise .illegalCommand) := by
  obtain ⟨e, he⟩ := decode_illegal h
  exact step_next_done (serve_illegal _ v e he)

end Sys2Proof.Machine

open Sys2Proof Sys2Proof.Machine Sys2Proof.Claims

/-- Settles O24: each command's row of `exec_writesOnly`. -/
theorem onlyTheNamedCommandsWrite : Obligations.OnlyTheNamedCommandsWrite := by
  intro i s
  obtain ⟨t, ht, h⟩ := exec_writesOnly i s
  refine ⟨t, ht, h.W, h.X, h.KS, h.R, h.S, h.ACC, h.TAG, h.mem, ?_⟩
  rw [h.frame]
  exact ⟨rfl, rfl, rfl, rfl, rfl, rfl, rfl, rfl, rfl, rfl, rfl, rfl, rfl, rfl, rfl, rfl⟩

/-- Settles O25: a step is idle or serves one access, and none writes them. -/
theorem parametersNeverChange : Obligations.ParametersNeverChange := by
  intro s t h
  rcases step_served h with ⟨-, rfl⟩ | ⟨access, rest, -, hserved⟩
  · exact ⟨rfl, rfl⟩
  · exact hserved.cfg_memSeed

/-- Settles O7: the access is a write to CMD, which `serve_command` runs. -/
theorem stepRunsDecodedCommand : Obligations.StepRunsDecodedCommand :=
  fun s v i rest h => step_next_run (serve_command (after s rest) v i h)

/-- Settles O52, field by field: each is a closed fact about `State.reset`. -/
theorem resetMeetsInvariant : Obligations.ResetMeetsInvariant where
  cfg_wf := by decide
  mem_wf := by decide
  mem_within := by decide
  acc_lt := by decide
  r_clamped := by decide
  err_legal := by decide
  phase_legal := by decide

end

section
/-! PROOFS. The register window through `readsAs` and `writesTo` (10_state R28 to R45), and the bytes and words of
little-endian sequences (00_scope R10, 20_memory R62). -/

namespace Sys2Proof.Machine

open Sys2Proof.Claims

/-! ### A host access to a register -/

/-- What a register reads does not depend on the accesses to come. -/
theorem readReg_after (r : RegName) (s : State) (rest : List HostAccess) :
    readReg r (after s rest) = readReg r s := by
  cases r <;> rfl

/-- A register write does not touch the accesses to come. -/
theorem writeReg_after (r : RegName) (v : Word) (s : State) (rest : List HostAccess) :
    writeReg r v (after s rest) = after (writeReg r v s) rest := by
  cases r <;> rfl

/-- A host read at an admitted offset returns the register that stands there. -/
theorem readsAs_readReg (s : State) (off : Nat) (hoff : off % 4 = 0 ∧ off < 0x1000) :
    readsAs s off (readReg (regAt off) s) := by
  intro rest
  have hserve := serve_regRead (after s rest) off (by simp [offsetOk, hoff])
  rw [step_next_done hserve, readReg_after]
  rfl

/-- A host write at an admitted offset but CMD's writes the register that stands there. -/
theorem writesTo_writeReg (s : State) (v : Word) (off : Nat) (hoff : off % 4 = 0 ∧ 0 < off ∧ off < 0x1000) :
    writesTo s off v (writeReg (regAt off) v s) := by
  obtain ⟨hmod, hpos, hlt⟩ := hoff
  intro rest
  have hserve := serve_regWrite (after s rest) off v (by simp [offsetOk, hmod, hlt]) (by omega)
  rw [step_next_done hserve, writeReg_after]
  rfl

/-- `readsAs_readReg` for an offset whose register is known. -/
theorem readsAs_at (s : State) {off : Nat} {r : RegName} (hr : regAt off = r)
    (hoff : off % 4 = 0 ∧ off < 0x1000) : readsAs s off (readReg r s) :=
  hr ▸ readsAs_readReg s off hoff

/-- `writesTo_writeReg` for an offset whose register is known. -/
theorem writesTo_at (s : State) (v : Word) {off : Nat} {r : RegName} (hr : regAt off = r)
    (hoff : off % 4 = 0 ∧ 0 < off ∧ off < 0x1000) : writesTo s off v (writeReg r v s) :=
  hr ▸ writesTo_writeReg s v off hoff

/-! ### Reserved and read-only offsets -/

/-- The offsets R44 lists hold no register. -/
theorem regAt_reserved {off : Nat} (h : reservedOffset off) : regAt off = .reserved := by
  obtain ⟨hmod, rfl | rfl | ⟨hlo, hhi⟩ | ⟨hlo, -⟩⟩ := h
  · rfl
  · rfl
  · have hcases : off = 0x134 ∨ off = 0x138 ∨ off = 0x13C := by omega
    rcases hcases with rfl | rfl | rfl <;> rfl
  · exact regAt_high off hlo

/-- The registers a host write leaves as they are, whatever it writes (10_state R40 to R44). -/
def ignoresWrites : RegName → Bool
  | .KS _ | .R_W _ | .S_W _ | .ACC_W _ | .TAG_W _ | .reserved => true
  | _ => false

/-- A host write to one of them changes nothing. -/
theorem writeReg_of_ignoresWrites {r : RegName} (h : ignoresWrites r = true) (v : Word) (s : State) :
    writeReg r v s = s := by
  cases r <;> cases h <;> rfl

/-- One of them stands at every read-only offset but that of STATUS (10_state R28). -/
theorem regAt_ignoresWrites {off : Nat} (h : readOnlyOffset off) : ignoresWrites (regAt off) = true := by
  have hall : ∀ n : Fin 0x150, readOnlyOffset n.val → ignoresWrites (regAt n.val) = true := by decide +kernel
  exact hall ⟨off, by omega⟩ h

/-! ### STATUS -/

/-- A host write of STATUS clears ERRSEEN if bit 16 is set (10_state R30, R33). -/
theorem Status.hostWrite_eq (v : Word) (st : Status) :
    st.hostWrite v = { st with errSeen := if v.getLsbD 16 then false else st.errSeen } := by
  rw [Status.hostWrite]
  cases v.getLsbD 16 <;> simp

/-- The value of a concatenation as a sum. -/
theorem toNat_append_eq_add {m n : Nat} (x : BitVec m) (y : BitVec n) :
    (x ++ y).toNat = x.toNat * 2 ^ n + y.toNat := by
  rw [BitVec.toNat_append, ← Nat.shiftLeft_add_eq_or_of_lt y.isLt, Nat.shiftLeft_eq]

/-- The value of STATUS as a sum (10_state R30). -/
theorem Status.word_toNat (st : Status) :
    st.word.toNat = st.err.toNat + 2 ^ 4 * st.phase.toNat + 2 ^ 16 * st.errSeen.toNat := by
  simp only [Status.word, toNat_append_eq_add, BitVec.toNat_ofBool, BitVec.toNat_ofNat]
  omega

/-- The bits of STATUS that hold no field read 0 (10_state R30, R44). -/
theorem Status.word_reserved (st : Status) (k : Nat) (h : (7 ≤ k ∧ k ≤ 15) ∨ 17 ≤ k) :
    st.word.getLsbD k = false := by
  have herr : ¬k < 4 := by omega
  have hphase : ¬k - 4 < 3 := by omega
  simp only [Status.word, BitVec.getLsbD_append, BitVec.getLsbD_zero, if_neg herr, if_neg hphase]
  rcases h with hlow | hhigh
  · rw [if_pos (by omega)]
  · rw [if_neg (by omega), if_neg (by omega)]

/-! ### Little-endian words -/

/-- A power of 256 in bits. -/
theorem pow_256 (n : Nat) : 256 ^ n = 2 ^ (8 * n) := by
  rw [pow_mul]
  rfl

/-- The integer of a sequence's first bytes. -/
theorem leInt_take (b : List Byte) (n : Nat) : leInt (b.take n) = leInt b % 256 ^ n := by
  induction b generalizing n with
  | nil => simp [leInt]
  | cons x b ih =>
    cases n with
    | zero => simp [leInt, Nat.mod_one]
    | succ n =>
      have hx := x.isLt
      have hdiv : (x.toNat + 256 * leInt b) / 256 = leInt b := by omega
      rw [List.take_succ_cons, leInt, leInt, ih, pow_succ', Nat.mod_mul, hdiv]
      omega

/-- The integer of a sequence without its first bytes. -/
theorem leInt_drop (b : List Byte) (n : Nat) : leInt (b.drop n) = leInt b / 256 ^ n := by
  induction b generalizing n with
  | nil => simp [leInt]
  | cons x b ih =>
    cases n with
    | zero => simp
    | succ n =>
      have hx := x.isLt
      have hdiv : (x.toNat + 256 * leInt b) / 256 = leInt b := by omega
      rw [List.drop_succ_cons, leInt, ih, pow_succ', ← Nat.div_div_eq_div_mul, hdiv]

/-- The integer of `bytes_le(n, v)` (00_scope R10). -/
theorem leInt_bytesLE (n v : Nat) : leInt (bytesLE n v) = v % 256 ^ n := by
  induction n generalizing v with
  | zero => simp [bytesLE, leInt, Nat.mod_one]
  | succ n ih => rw [bytesLE, leInt, ih, pow_succ', Nat.mod_mul, BitVec.toNat_ofNat]

/-- Bits 32j + 31 to 32j of a vector, by its value. -/
theorem extractLsb'_eq_ofNat_div {n : Nat} (x : BitVec n) (j : Nat) :
    x.extractLsb' (32 * j) 32 = BitVec.ofNat 32 (x.toNat / 2 ^ (32 * j)) := by
  rw [← Nat.shiftRight_eq_div_pow]
  rfl

/-- Word j of a sequence is bits 32j + 31 to 32j of its integer (00_scope R10). -/
theorem le32_eq_ofNat_div (b : List Byte) (j : Nat) : le32 b j = BitVec.ofNat 32 (leInt b / 2 ^ (32 * j)) := by
  rw [le32, leInt_take, leInt_drop, pow_256 (4 * j), ← Nat.mul_assoc]
  exact BitVec.eq_of_toNat_eq (by simp)

/-- Word j of a 128-bit value made of a sequence's first bytes is word j of the sequence. -/
theorem extractLsb'_ofNat_leInt_take (b : List Byte) {j : Nat} (hj : j < 4) :
    (BitVec.ofNat 128 (leInt (b.take 16))).extractLsb' (32 * j) 32 = le32 b j := by
  rw [extractLsb'_eq_ofNat_div, le32_eq_ofNat_div, leInt_take]
  apply BitVec.eq_of_toNat_eq
  simp only [BitVec.toNat_ofNat]
  interval_cases j <;> omega

/-- Word j of the tag bytes is word j of the finalised accumulator (43_poly1305 R170). -/
theorem le32_tagBytes (a j : Nat) :
    le32 (tagBytes a) j = (BitVec.ofNat 128 a).extractLsb' (32 * j) 32 := by
  rw [le32_eq_ofNat_div, extractLsb'_eq_ofNat_div, tagBytes, leInt_bytesLE, BitVec.toNat_ofNat]
  exact congrArg (fun n => BitVec.ofNat 32 (n / _)) (Nat.mod_mod _ _)

/-- Four bytes as one word, the first the lowest. -/
theorem ofNat_leInt_four (a b c d : Byte) : BitVec.ofNat 32 (leInt [a, b, c, d]) = d ++ c ++ b ++ a := by
  apply BitVec.eq_of_toNat_eq
  have ha := a.isLt; have hb := b.isLt; have hc := c.isLt; have hd := d.isLt
  simp only [leInt, toNat_append_eq_add, BitVec.toNat_ofNat]
  omega

/-- Word j of a buffer is the word of MEM at its place (20_memory R62, R64). -/
theorem le32_readBuffer (s : State) (buf : Buffer) {j : Nat} (hj : 4 * j + 4 ≤ buf.len) :
    le32 (s.readBuffer buf) j = wordAt s (buf.addr + 4 * j) := by
  have hbytes : ((s.readBuffer buf).drop (4 * j)).take 4 =
      [s.readByte (buf.addr + 4 * j), s.readByte (buf.addr + 4 * j + 1), s.readByte (buf.addr + 4 * j + 2),
        s.readByte (buf.addr + 4 * j + 3)] := by
    apply List.ext_getElem
    · simp; omega
    · intro i h₁ h₂
      simp only [List.getElem_take, List.getElem_drop, State.readBuffer_getElem, ← Nat.add_assoc]
      have hi : i < 4 := h₂
      interval_cases i <;> rfl
  rw [le32, hbytes, ofNat_leInt_four]
  rfl

/-- A buffer reads back what was written over it. -/
theorem State.readBuffer_writeBytes (s : State) (a : Nat) (bs : List Byte) :
    (s.writeBytes a bs).readBuffer { addr := a, len := bs.length } = bs := by
  apply List.ext_getElem (by simp)
  intro i h₁ h₂
  rw [State.readBuffer_getElem, State.readByte_writeBytes, dif_pos (by simp only; omega)]
  simp

/-! ### The bytes of a register file -/

/-- Byte k of the concatenation of sequences that are all n bytes long. -/
theorem getElem?_flatMap_of_length {α : Type} (n : Nat) (f : α → List Byte) (hf : ∀ x, (f x).length = n)
    (l : List α) (k : Nat) (hk : k < l.length * n) :
    (l.flatMap f)[k]? = l[k / n]?.bind fun x => (f x)[k % n]? := by
  induction l generalizing k with
  | nil => simp at hk
  | cons x l ih =>
    have hn : 0 < n := Nat.pos_of_ne_zero fun h => by simp [h] at hk
    rw [List.flatMap_cons]
    by_cases hlt : k < n
    · rw [List.getElem?_append_left (by rw [hf]; exact hlt), Nat.div_eq_of_lt hlt, Nat.mod_eq_of_lt hlt]
      rfl
    · obtain ⟨m, rfl⟩ : ∃ m, k = m + n := ⟨k - n, by omega⟩
      rw [List.length_cons, Nat.add_mul, Nat.one_mul] at hk
      rw [List.getElem?_append_right (by rw [hf]; omega), hf, Nat.add_sub_cancel, ih m (by omega), Nat.add_mod_right,
        Nat.add_div_right m hn, List.getElem?_cons_succ]

/-- Byte i of a word, by shift and mask. -/
theorem ofNat_div_eq_shift_mask (x : Word) (i : Nat) :
    BitVec.ofNat 8 (x.toNat / 256 ^ i) = (x >>> (8 * i) &&& 0xff#32).setWidth 8 := by
  apply BitVec.eq_of_toNat_eq
  rw [BitVec.toNat_ofNat, BitVec.toNat_setWidth, toNat_and_255, Nat.mod_mod, BitVec.toNat_ushiftRight,
    Nat.shiftRight_eq_div_pow, pow_256]

/-- Byte k of the 64 bytes of a register file (00_scope R10, 10_state R40). -/
theorem ser_getElem? (w : RegFile) {k : Nat} (hk : k < 64) :
    (ser w)[k]? = some ((w[Fin.ofNat 16 (k / 4)] >>> (8 * (k % 4)) &&& 0xff#32).setWidth 8) := by
  have hword : w.toList[k / 4]? = some w[Fin.ofNat 16 (k / 4)] := by
    have hlt : k / 4 < 16 := by omega
    simp [hlt, Nat.mod_eq_of_lt hlt]
  have hmod : k % 4 < (bytesLE 4 w[Fin.ofNat 16 (k / 4)].toNat).length := by rw [bytesLE_length]; omega
  rw [ser, getElem?_flatMap_of_length 4 _ (fun x => bytesLE_length 4 _) _ _ (by simpa using hk), hword,
    Option.bind_some, List.getElem?_eq_getElem hmod, bytesLE_getElem, ofNat_div_eq_shift_mask]

/-! ### MAC_KEY and MAC_TAG without an error -/

/-- With no error code MAC_KEY's checks all pass (43_poly1305 R173). -/
theorem macKeyFailure_none {s : State} (h : macKeyErr s = 0#4) : macKeyFailure s = none := by
  simp only [macKeyErr] at h
  split at h
  · cases h
  · split at h
    · next hlen hfits =>
      simp only [macKeyFailure, firstFailure_none, List.forall_mem_cons, State.keyLenCheck_pass,
        State.rangeCheck_pass]
      exact ⟨not_not.1 hlen, ⟨hfits, by simp⟩, by simp⟩
    · cases h

/-- With no error code MAC_TAG's checks all pass (43_poly1305 R177). -/
theorem macTagFailure_none {s : State} (h : macTagErr s = 0#4) : macTagFailure s = none := by
  simp only [macTagErr] at h
  split at h
  · next hfits =>
    simp only [macTagFailure, firstFailure_none, List.forall_mem_cons, State.rangeCheck_pass]
    exact ⟨⟨hfits.1, hfits.2, by simp⟩, by simp⟩
  · cases h

/-- Word j of the multiplier MAC_KEY loads is the key's word under the mask's (10_state R41, 43_poly1305 R161). -/
theorem multiplierOf_word (s : State) {j : Nat} (hj : j < 4) :
    (multiplierOf s.cfg.clampMask s.key).extractLsb' (32 * j) 32 =
      wordAt s (s.KEY_ADDR.toNat + 4 * j) &&& BitVec.ofNat 32 (s.cfg.clampMask.toNat / 2 ^ (32 * j)) := by
  rw [multiplierOf, BitVec.extractLsb'_and, extractLsb'_ofNat_leInt_take _ hj, State.key,
    le32_readBuffer s s.keyBuffer (by simp; omega), extractLsb'_eq_ofNat_div s.cfg.clampMask]
  rfl

/-- The end of a command leaves the words of MEM. -/
theorem wordAt_complete (s : State) (a : Nat) : wordAt s.complete a = wordAt s a := rfl

/-- The tag buffer after a MemWrite of tag bytes holds the words of the tag (10_state R43). -/
theorem wordAt_writeBytes_tagBytes (s : State) (addr a : Nat) {j : Nat} (hj : j < 4) :
    wordAt (s.writeBytes addr (tagBytes a)) (addr + 4 * j) = (BitVec.ofNat 128 a).extractLsb' (32 * j) 32 := by
  rw [← le32_tagBytes, ← State.readBuffer_writeBytes s addr (tagBytes a),
    le32_readBuffer _ _ (by simp; omega), State.readBuffer_writeBytes]

end Sys2Proof.Machine

open Sys2Proof Sys2Proof.Machine Sys2Proof.Claims

/-- Settles O9: the registers at these offsets by `regAt_W` and `regAt_X`. -/
theorem workingStateWindow : Obligations.WorkingStateWindow := by
  intro s i v
  exact ⟨readsAs_at s (regAt_W i) (by omega), readsAs_at s (regAt_X i) (by omega),
    ⟨s.W.set i v, writesTo_at s v (regAt_W i) (by omega), fun k => RegFile.getElem_set s.W i k v⟩,
    ⟨s.X.set i v, writesTo_at s v (regAt_X i) (by omega), fun k => RegFile.getElem_set s.X i k v⟩⟩

/-- Settles O10: the window by `regAt_KS`, the bytes by `ser_getElem?`. -/
theorem keystreamWindow : Obligations.KeystreamWindow := by
  intro s i v
  exact ⟨readsAs_at s (regAt_KS i) (by omega), writesTo_at s v (regAt_KS i) (by omega),
    fun k hk => ser_getElem? s.KS hk⟩

/-- Settles O12: the register at each offset, and that its write gives the state back. -/
theorem reservedAndReadOnlyIgnoreWrites : Obligations.ReservedAndReadOnlyIgnoreWrites := by
  intro s v
  refine ⟨fun off h => ?reserved, fun off h => ?readOnly, fun h => ?status, ?statusBits, ?roundsBits, ?rounds⟩
  case reserved =>
    exact ⟨readsAs_at s (regAt_reserved h) (by omega), writesTo_at s v (regAt_reserved h) (by omega)⟩
  case readOnly =>
    have hwrite := writesTo_writeReg s v off (by omega)
    rwa [writeReg_of_ignoresWrites (regAt_ignoresWrites h)] at hwrite
  case status =>
    have hwrite : writesTo s 0x004 v (s.writeStatus v) := writesTo_writeReg s v _ (by decide)
    rwa [State.writeStatus, Status.hostWrite_eq, h] at hwrite
  case statusBits => exact ⟨s.status.word, readsAs_readReg s _ (by decide), s.status.word_reserved⟩
  case roundsBits =>
    refine ⟨s.ROUNDS.setWidth 32, readsAs_readReg s _ (by decide), fun k hk => ?_⟩
    rw [BitVec.getLsbD_setWidth, BitVec.getLsbD_of_ge _ _ hk, Bool.and_false]
  case rounds =>
    rw [BitVec.ofNat_toNat]
    exact writesTo_writeReg s v _ (by decide)

/-- Settles O13: the register at each offset by evaluating `regAt` there. -/
theorem controlRegisterWindow : Obligations.ControlRegisterWindow := by
  intro s v
  rw [BitVec.ofNat_toNat, BitVec.ofNat_toNat]
  exact ⟨readsAs_readReg s 0x000 (by decide),
    readsAs_readReg s 0x008 (by decide), writesTo_writeReg s v 0x008 (by decide),
    readsAs_readReg s 0x00C (by decide), writesTo_writeReg s v 0x00C (by decide),
    readsAs_readReg s 0x010 (by decide), writesTo_writeReg s v 0x010 (by decide),
    readsAs_readReg s 0x014 (by decide), writesTo_writeReg s v 0x014 (by decide),
    readsAs_readReg s 0x018 (by decide), writesTo_writeReg s v 0x018 (by decide),
    readsAs_readReg s 0x01C (by decide), writesTo_writeReg s v 0x01C (by decide),
    readsAs_readReg s 0x020 (by decide), writesTo_writeReg s v 0x020 (by decide),
    readsAs_readReg s 0x024 (by decide), writesTo_writeReg s v 0x024 (by decide),
    readsAs_readReg s 0x028 (by decide), writesTo_writeReg s v 0x028 (by decide),
    readsAs_readReg s 0x02C (by decide), writesTo_writeReg s v 0x02C (by decide),
    readsAs_readReg s 0x030 (by decide), writesTo_writeReg s v 0x030 (by decide),
    readsAs_readReg s 0x034 (by decide), writesTo_writeReg s v 0x034 (by decide)⟩

/-- A host write of STATUS, as O14 and O15 state it (10_state R30, R33). -/
theorem writesTo_status (s : State) (v : Word) : writesTo s 0x004 v
    { s with status := { s.status with errSeen := if v.getLsbD 16 then false else s.status.errSeen } } := by
  rw [← Status.hostWrite_eq]
  exact writesTo_writeReg s v _ (by decide)

/-- Settles O14: STATUS is the sum of its fields, and a write of it clears ERRSEEN or nothing. -/
theorem statusRegisterWindow : Obligations.StatusRegisterWindow := by
  intro s v
  refine ⟨?_, writesTo_status s v, rfl⟩
  rw [← Status.word_toNat, BitVec.ofNat_toNat, BitVec.setWidth_eq]
  exact readsAs_readReg s _ (by decide)

/-- Settles O15: commands by `exec_errSeen`, illegal words by `step_illegal`. -/
theorem errSeenIsSticky : Obligations.ErrSeenIsSticky :=
  ⟨exec_errSeen, fun s _ rest h => ⟨_, step_illegal s rest h, rfl⟩, writesTo_status,
    fun s rest => ⟨(after s rest).applyReset, rfl, rfl⟩⟩

/-- Settles O11: the windows by `regAt_R_W` and its like, MAC_KEY by `multiplierOf_word`, MAC_TAG by the words of
the tag bytes it writes. -/
theorem macRegisterWindow : Obligations.MacRegisterWindow := by
  intro s v
  refine ⟨fun j hj => ?words, ?top, ?topWrite, fun h => ?macKey, fun h => ?macTag⟩
  case words =>
    simp only [← extractLsb'_eq_ofNat_div]
    exact ⟨readsAs_at s (regAt_R_W ⟨j, hj⟩) (by omega), writesTo_at s v (regAt_R_W ⟨j, hj⟩) (by omega),
      readsAs_at s (regAt_S_W ⟨j, hj⟩) (by omega), writesTo_at s v (regAt_S_W ⟨j, hj⟩) (by omega),
      readsAs_at s (regAt_ACC_W ⟨j, by omega⟩) (by omega), writesTo_at s v (regAt_ACC_W ⟨j, by omega⟩) (by omega),
      readsAs_at s (regAt_TAG_W ⟨j, hj⟩) (by omega), writesTo_at s v (regAt_TAG_W ⟨j, hj⟩) (by omega)⟩
  case top =>
    rw [← extractLsb'_eq_ofNat_div s.ACC 4]
    exact readsAs_at s (regAt_ACC_W 4) (by decide)
  case topWrite => exact writesTo_at s v (regAt_ACC_W 4) (by decide)
  case macKey =>
    refine ⟨_, by rw [exec_macKey, macKeyFailure_none h], fun j hj => ?_⟩
    rw [← multiplierOf_word s hj]
    exact readsAs_at _ (regAt_R_W ⟨j, hj⟩) (by omega)
  case macTag =>
    refine ⟨_, by rw [exec_macTag, macTagFailure_none h, State.command_none], fun j hj => ?_⟩
    have hword := wordAt_writeBytes_tagBytes (s.setAccTag s.finalised) s.TAG_ADDR.toNat s.finalised hj
    rw [wordAt_complete, State.tagBuffer_addr, hword]
    exact readsAs_at _ (regAt_TAG_W ⟨j, hj⟩) (by omega)

end

section
/-! PROOFS. The host's accesses to MEM, and which accesses are refused (20_memory R66 to R70). -/

namespace Sys2Proof.Machine

open Sys2Proof.Claims

/-! ### The host's accesses to MEM -/

/-- A host write below MEM_SIZE is a MemWrite of one byte (20_memory R68). -/
theorem serve_memWrite (s : State) {a : Nat} (b : Byte) (h : a < s.cfg.memSize) :
    serveAccess (.memWrite a b) s = .done (.next (s.writeBytes a [b])) :=
  if_pos h

/-- A host read below MEM_SIZE returns the byte (20_memory R69). -/
theorem serve_memRead (s : State) {a : Nat} (h : a < s.cfg.memSize) :
    serveAccess (.memRead a) s = .done (.next (s.returnValue (.mem (s.readByte a)))) :=
  if_pos h

/-- What a read gives after a MemWrite of one byte. -/
theorem State.readByte_writeBytes_singleton (s : State) (a : Nat) (b : Byte) (x : Nat) :
    (s.writeBytes a [b]).readByte x = if x = a then b else s.readByte x := by
  by_cases hx : x = a
  · subst hx
    simp [State.readByte_writeBytes]
  · rw [if_neg hx, State.readByte_writeBytes_outside]
    rw [List.length_singleton]
    omega

/-! ### Which accesses are refused -/

/-- A register access at an offset outside the window is refused (20_memory R70). -/
theorem offsetRefusal_some {off : Nat} (h : off % 4 ≠ 0 ∨ 0x1000 ≤ off) : ∃ r, offsetRefusal off = some r := by
  refine Option.ne_none_iff_exists'.1 fun hnone => ?_
  have hok : off % 4 = 0 ∧ off < 0x1000 := by simpa [offsetOk] using (offsetRefusal_none off).1 hnone
  omega

/-- Serving an access outside the interface refuses it (20_memory R70). -/
theorem serveAccess_refused {access : HostAccess} {s : State} (h : outside s.cfg.memSize access) :
    ∃ r, serveAccess access s = .done (.refused r) := by
  cases access with
  | regWrite off v =>
    obtain ⟨r, hr⟩ := offsetRefusal_some h
    exact ⟨r, by simp only [serveAccess, hr]⟩
  | regRead off =>
    obtain ⟨r, hr⟩ := offsetRefusal_some h
    exact ⟨r, by simp only [serveAccess, hr]⟩
  | regOddWidth width off => exact ⟨_, rfl⟩
  | memWrite a b => exact ⟨_, if_neg (Nat.not_lt.2 h)⟩
  | memRead a => exact ⟨_, if_neg (Nat.not_lt.2 h)⟩
  | reset => exact h.elim

/-- Writing CMD gives a next state, whatever the word: a command's, or IllegalCommand's (10_state R29). -/
theorem step_writeCmd_next (s : State) (v : Word) (rest : List HostAccess) :
    ∃ t, step (next s (.regWrite 0x000 v) rest) = .next t := by
  cases hv : decode v with
  | ok i =>
    rw [step_next_run (serve_command _ v i hv)]
    exact exec_next i _
  | error e => exact ⟨_, step_next_done (serve_illegal _ v e hv)⟩

/-- An access inside the interface gives a next state (20_memory R66 to R69, 70_reset R240). -/
theorem step_next_of_not_outside {s : State} {access : HostAccess} (rest : List HostAccess)
    (h : ¬outside s.cfg.memSize access) : ∃ t, step (next s access rest) = .next t := by
  cases access with
  | regWrite off v =>
    obtain ⟨hmod, hlt⟩ : off % 4 = 0 ∧ off < 0x1000 := by simpa [outside] using h
    rcases Nat.eq_zero_or_pos off with rfl | hpos
    · exact step_writeCmd_next s v rest
    · exact ⟨_, writesTo_writeReg s v off ⟨hmod, hpos, hlt⟩ rest⟩
  | regRead off =>
    have hoff : off % 4 = 0 ∧ off < 0x1000 := by simpa [outside] using h
    exact ⟨_, readsAs_readReg s off hoff rest⟩
  | regOddWidth width off => exact absurd trivial h
  | memWrite a b => exact ⟨_, step_next_done (serve_memWrite (after s rest) b (Nat.not_le.1 h))⟩
  | memRead a => exact ⟨_, step_next_done (serve_memRead (after s rest) (Nat.not_le.1 h))⟩
  | reset => exact ⟨(after s rest).applyReset, rfl⟩

end Sys2Proof.Machine

open Sys2Proof Sys2Proof.Machine Sys2Proof.Claims

/-- Settles O16: the step is a MemWrite of one byte. -/
theorem hostWriteSetsOneByte : Obligations.HostWriteSetsOneByte := fun s a b rest h =>
  ⟨s.mem.writeBytes a [b], step_next_done (serve_memWrite (after s rest) b h),
    State.readByte_writeBytes_singleton s a b⟩

/-- Settles O17: the step appends what `serve_memRead` returns, and a read of MEM does not depend on the accesses
to come. -/
theorem hostReadReturnsByte : Obligations.HostReadReturnsByte :=
  fun s _ rest h => step_next_done (serve_memRead (after s rest) h)

/-- Settles O18: refusals by `serveAccess_refused`, next states by `step_next_of_not_outside`. -/
theorem outsideAccessIsRefused : Obligations.OutsideAccessIsRefused := by
  refine fun s access rest => ⟨fun h => ?_, step_next_of_not_outside rest⟩
  obtain ⟨r, hr⟩ := serveAccess_refused (s := after s rest) h
  exact ⟨r, step_next_done hr⟩

end

section
/-! PROOFS. The opcode map as a list of rows, one per command of format N after QR's, and decoding and encoding as
inverses of each other (30_encoding R81 to R86). -/

namespace Sys2Proof

open Sys2Proof.Machine

/-! ### The commands and their rows -/

/-- The commands of format N, in the order of the opcode map (30_encoding R82, R84). -/
def formatN : List Instr :=
  [.dround, .binit, .bfinal, .block, .stream, .macKey, .macClear, .macBlock, .macFinal, .macTag, .aeadSeal, .aeadOpen]

/-- A command is a QR or of format N (30_encoding R80). -/
theorem eq_qr_or_mem_formatN (i : Instr) : (∃ a b c d, i = .qr a b c d) ∨ i ∈ formatN := by
  cases i with
  | qr a b c d => exact .inl ⟨a, b, c, d, rfl⟩
  | _ => exact .inr (by decide)

/-- No QR is of format N. -/
theorem qr_not_mem_formatN (a b c d : Fin 16) : Instr.qr a b c d ∉ formatN := by
  simp [formatN]

/-- The row of a command of format N: its word, and no other, under the full mask (30_encoding R82). -/
def rowOfN (i : Instr) : OpcodeRow := rowN i.mnemonic (encode i) i

/-- The opcode map is QR's row and the rows of the commands of format N (30_encoding R84). -/
theorem opcodeTable_eq : opcodeTable = rowQR :: formatN.map rowOfN := rfl

theorem rowQR_mem_opcodeTable : rowQR ∈ opcodeTable := List.mem_cons_self

theorem rowOfN_mem_opcodeTable {i : Instr} (h : i ∈ formatN) : rowOfN i ∈ opcodeTable :=
  List.mem_cons_of_mem _ (List.mem_map_of_mem h)

/-- A row of the map is QR's or that of a command of format N. -/
theorem mem_opcodeTable {r : OpcodeRow} (h : r ∈ opcodeTable) : r = rowQR ∨ ∃ i ∈ formatN, r = rowOfN i := by
  rcases List.mem_cons.1 (opcodeTable_eq ▸ h) with rfl | h
  · exact .inl rfl
  · obtain ⟨i, hi, rfl⟩ := List.mem_map.1 h
    exact .inr ⟨i, hi, rfl⟩

/-- The commands of a row have the row's mnemonic. -/
theorem mnemonic_build {r : OpcodeRow} (hr : r ∈ opcodeTable) (v : Word) : (r.build v).mnemonic = r.mnemonic := by
  rcases mem_opcodeTable hr with rfl | ⟨i, -, rfl⟩ <;> rfl

/-! ### Which row selects a word -/

theorem OpcodeRow.selects_iff (r : OpcodeRow) (v : Word) : r.selects v = true ↔ v &&& r.mask = r.pattern :=
  beq_iff_eq

/-- The row of a command of format N selects that command's word only (30_encoding R82). -/
theorem rowOfN_selects_iff (i : Instr) (v : Word) : (rowOfN i).selects v = true ↔ v = encode i := by
  rw [OpcodeRow.selects_iff]
  exact Eq.congr_left BitVec.and_allOnes

/-- QR's row selects every word of format Q with QR's opcode (30_encoding R81). -/
theorem rowQR_selects_encode_qr (a b c d : Fin 16) : rowQR.selects (encode (.qr a b c d)) = true := by
  have hpattern : 0#24 ++ 0x01#8 = 0x00000001#32 := by decide
  exact (OpcodeRow.selects_iff _ _).2 ((Laws.EncodingRow.encodeQ_masked 0x01#8 a b c d).trans hpattern)

/-- Every mask includes bits [7:0], so a row selects words of its own opcode only (30_encoding R85). -/
theorem opcField_of_selects {r : OpcodeRow} {v : Word} (hr : r ∈ opcodeTable) (h : r.selects v = true) :
    opcField v = opcField r.pattern := by
  have hmask : ∀ r ∈ opcodeTable, opcField r.mask = BitVec.allOnes 8 := by decide
  calc opcField v = opcField v &&& opcField r.mask := by rw [hmask r hr, BitVec.and_allOnes]
    _ = opcField (v &&& r.mask) := BitVec.extractLsb'_and.symm
    _ = opcField r.pattern := by rw [(r.selects_iff v).1 h]

/-- The rows differ in their opcode, so no word is selected by two (30_encoding R85). -/
theorem eq_of_selects {r₁ r₂ : OpcodeRow} {v : Word} (hr₁ : r₁ ∈ opcodeTable) (hr₂ : r₂ ∈ opcodeTable)
    (h₁ : r₁.selects v = true) (h₂ : r₂.selects v = true) : r₁ = r₂ := by
  have hnodup : (opcodeTable.map fun r => opcField r.pattern).Nodup := by decide
  exact List.inj_on_of_nodup_map hnodup hr₁ hr₂
    ((opcField_of_selects hr₁ h₁).symm.trans (opcField_of_selects hr₂ h₂))

/-! ### The decoder by rows -/

/-- A word decodes to the command of the row that selects it (30_encoding R85). -/
theorem decode_of_selects {r : OpcodeRow} {v : Word} (hr : r ∈ opcodeTable) (h : r.selects v = true) :
    decode v = .ok (r.build v) := by
  have hsome : (opcodeTable.find? fun r => r.selects v).isSome := List.find?_isSome.2 ⟨r, hr, h⟩
  obtain ⟨r', hr'⟩ := Option.isSome_iff_exists.1 hsome
  have hsel : r'.selects v = true := List.find?_some (p := (OpcodeRow.selects · v)) hr'
  have hsame : r' = r := eq_of_selects (List.mem_of_find?_eq_some hr') hr hsel h
  rw [decode, hr', hsame]

/-- A word that no row selects decodes to no command (30_encoding R85, R86). -/
theorem decode_of_not_selects {v : Word} (h : ∀ r ∈ opcodeTable, ¬r.selects v = true) :
    ∃ e, decode v = .error e := by
  rw [decode, List.find?_eq_none.2 h]
  by_cases hk : opcodeKnown v = true
  · exact ⟨.reservedBits, if_pos hk⟩
  · exact ⟨.unknownOpcode, if_neg hk⟩

/-- A word decodes to a command if and only if a row selects it and builds that command from it. -/
theorem decode_eq_ok_iff (v : Word) (i : Instr) :
    decode v = .ok i ↔ ∃ r ∈ opcodeTable, r.selects v = true ∧ r.build v = i := by
  constructor
  · intro h
    by_contra hnone
    obtain ⟨e, he⟩ := decode_of_not_selects (v := v) fun r hr hsel => by
      rw [decode_of_selects hr hsel] at h
      exact hnone ⟨r, hr, hsel, Except.ok.inj h⟩
    rw [he] at h
    cases h
  · rintro ⟨r, hr, hsel, rfl⟩
    exact decode_of_selects hr hsel

/-! ### The fields of a word of format Q -/

/-- The value of a word of format Q as a sum (30_encoding R81). -/
theorem encodeQ_toNat (opc : BitVec 8) (a b c d : Fin 16) :
    (encodeQ opc a b c d).toNat =
      opc.toNat + 2 ^ 8 * a.val + 2 ^ 12 * b.val + 2 ^ 16 * c.val + 2 ^ 20 * d.val := by
  simp only [encodeQ, toNat_append_eq_add, BitVec.toNat_ofFin, BitVec.toNat_ofNat]
  omega

/-- An index field by the word's value (30_encoding R83). -/
theorem indexField_val (v : Word) (lo : Nat) : (indexField v lo).val = v.toNat / 2 ^ lo % 16 := by
  rw [← Nat.shiftRight_eq_div_pow]
  rfl

/-- The index fields of a word of format Q are its operands (30_encoding R81, R83). -/
theorem rowQR_build_encodeQ (opc : BitVec 8) (a b c d : Fin 16) :
    rowQR.build (encodeQ opc a b c d) = .qr a b c d := by
  have hopc := opc.isLt
  simp only [rowQR, Instr.qr.injEq, Fin.ext_iff, indexField_val, encodeQ_toNat]
  refine ⟨?_, ?_, ?_, ?_⟩ <;> omega

/-- A word that QR's row selects has the opcode 1 and no reserved bit set (30_encoding R81). -/
theorem toNat_of_rowQR_selects {v : Word} (h : rowQR.selects v = true) :
    v.toNat % 2 ^ 8 = 1 ∧ v.toNat < 2 ^ 24 := by
  have hopcode : v.toNat % 2 ^ 8 = 1 := congrArg BitVec.toNat (opcField_of_selects rowQR_mem_opcodeTable h)
  have hmasked : v &&& 0xFF#32 = 0x01#32 := BitVec.eq_of_toNat_eq ((toNat_and_255 v).trans hopcode)
  have hreserved : v >>> 24 = 0#32 := by
    by_contra hne
    exact not_illegal_of_selects rowQR_mem_opcodeTable h (.inr (.inl ⟨hmasked, hne⟩))
  have hdiv : v.toNat / 2 ^ 24 = 0 := by
    simpa [Nat.shiftRight_eq_div_pow] using congrArg BitVec.toNat hreserved
  omega

/-- QR's row reads a word's operands and loses nothing else of it (30_encoding R81). -/
theorem encode_rowQR_build {v : Word} (h : rowQR.selects v = true) : encode (rowQR.build v) = v := by
  obtain ⟨hopcode, hreserved⟩ := toNat_of_rowQR_selects h
  apply BitVec.eq_of_toNat_eq
  simp only [rowQR, encode, Instr.opcode, encodeQ_toNat, indexField_val, BitVec.toNat_ofNat]
  omega

/-- The word a row selects is the word of the command it builds (30_encoding R84, R85). -/
theorem encode_build {r : OpcodeRow} {v : Word} (hr : r ∈ opcodeTable) (h : r.selects v = true) :
    encode (r.build v) = v := by
  rcases mem_opcodeTable hr with rfl | ⟨i, -, rfl⟩
  · exact encode_rowQR_build h
  · exact ((rowOfN_selects_iff i v).1 h).symm

end Sys2Proof

open Sys2Proof Sys2Proof.Machine Sys2Proof.Claims

/-- Settles O1: QR's row selects a QR's word and reads its operands back; the other words are those of their rows. -/
theorem decodeOfEncode : Obligations.DecodeOfEncode := by
  intro i
  rcases eq_qr_or_mem_formatN i with ⟨a, b, c, d, rfl⟩ | hi
  · rw [decode_of_selects rowQR_mem_opcodeTable (rowQR_selects_encode_qr a b c d)]
    exact congrArg Except.ok (rowQR_build_encodeQ _ a b c d)
  · exact decode_of_selects (rowOfN_mem_opcodeTable hi) ((rowOfN_selects_iff i _).2 rfl)

/-- Settles O2: the row that selects the word builds the command, and `encode_build` gives the word back. -/
theorem encodeOfDecode : Obligations.EncodeOfDecode := by
  intro v i h
  obtain ⟨r, hr, hsel, rfl⟩ := (decode_eq_ok_iff v i).1 h
  exact encode_build hr hsel

/-- Settles O3: the rows are disjoint by `eq_of_selects`, and the decoder takes the row that selects the word. -/
theorem wordDecodesByItsOneRow : Obligations.WordDecodesByItsOneRow := by
  refine ⟨rfl, fun v r₁ r₂ hr₁ hr₂ h₁ h₂ => ?_, fun v r hr h => ?_, fun v h => ?_⟩
  · rw [eq_of_selects hr₁ hr₂ ((r₁.selects_iff v).2 h₁) ((r₂.selects_iff v).2 h₂)]
  · exact ⟨r.build v, decode_of_selects hr ((r.selects_iff v).2 h), mnemonic_build hr v⟩
  · exact decode_of_not_selects fun r hr hsel => h r hr ((r.selects_iff v).1 hsel)

namespace Sys2Proof

/-! ### How many words are legal -/

/-- No two commands have one word. -/
theorem encode_injective : Function.Injective encode := fun i j h =>
  Except.ok.inj ((decodeOfEncode i).symm.trans ((congrArg decode h).trans (decodeOfEncode j)))

/-- The legal words are the words of the commands. -/
theorem legalWords_eq_range_encode : { v : Word | ∃ i, decode v = .ok i } = Set.range encode := by
  ext v
  constructor
  · rintro ⟨i, hi⟩
    exact ⟨i, encodeOfDecode v i hi⟩
  · rintro ⟨i, rfl⟩
    exact ⟨i, decodeOfEncode i⟩

/-- QR of a tuple of indices. -/
def qrOf (x : Fin 16 × Fin 16 × Fin 16 × Fin 16) : Instr := .qr x.1 x.2.1 x.2.2.1 x.2.2.2

theorem qrOf_injective : Function.Injective qrOf := by
  rintro ⟨a, b, c, d⟩ ⟨a', b', c', d'⟩ h
  obtain ⟨rfl, rfl, rfl, rfl⟩ := Instr.qr.inj h
  rfl

/-- The commands are the 2^16 QRs and the 12 of format N (30_encoding R86). -/
theorem card_instr : Nat.card Instr = 2 ^ 16 + 12 := by
  have hall : (Set.univ : Set Instr) = Set.range qrOf ∪ ↑formatN.toFinset := by
    refine (Set.eq_univ_of_forall fun i => ?_).symm
    rcases eq_qr_or_mem_formatN i with ⟨a, b, c, d, rfl⟩ | hi
    · exact .inl ⟨(a, b, c, d), rfl⟩
    · exact .inr (List.mem_toFinset.2 hi)
  have hdisjoint : Disjoint (Set.range qrOf) ↑formatN.toFinset := by
    rw [Set.disjoint_left]
    rintro - ⟨⟨a, b, c, d⟩, rfl⟩ hi
    exact qr_not_mem_formatN a b c d (List.mem_toFinset.1 hi)
  have hqr : (Set.range qrOf).ncard = 2 ^ 16 := by
    rw [← Nat.card_coe_set_eq, Nat.card_range_of_injective qrOf_injective]
    simp
  have hN : (↑formatN.toFinset : Set Instr).ncard = 12 := by
    rw [Set.ncard_coe_finset]
    rfl
  rw [← Set.ncard_univ, hall, Set.ncard_union_eq hdisjoint (Set.finite_range qrOf) (Finset.finite_toSet _), hqr, hN]

end Sys2Proof

/-- Settles O4: the legal words are as many as the commands. -/
theorem legalWordCount : Obligations.LegalWordCount := by
  rw [Obligations.LegalWordCount, legalWords_eq_range_encode, ← Nat.card_coe_set_eq,
    Nat.card_range_of_injective encode_injective, card_instr]

/-- Settles O5: each word is the encoding of the command the spec names. -/
theorem specWordsDecode : Obligations.SpecWordsDecode :=
  ⟨decodeOfEncode (.qr 0 4 8 12), decodeOfEncode (.qr 1 6 11 12), decodeOfEncode (.qr 3 4 9 14),
    decodeOfEncode (.qr 0 1 2 3), decodeOfEncode .dround, decodeOfEncode .block, decodeOfEncode .stream,
    decodeOfEncode .macTag, decodeOfEncode .aeadSeal, decodeOfEncode .aeadOpen⟩

end

section
/-! PROOFS. The quarter-round pipeline (spec/40_quarter_round.md): the model's operations on a register file are the
spec's by index, a quarter-round reads and writes the registers it names and no other, and it can be undone. -/

namespace Sys2Proof.Machine

open Sys2Proof.Claims

/-! ### A register file by index -/

/-- A register file is its sixteen words. -/
theorem regs_injective : Function.Injective regs := fun _ _ h =>
  Vector.ext fun i hi => congrFun h ⟨i, hi⟩

/-- There are finitely many register files. -/
theorem RegFile.finite : Finite RegFile := Finite.of_injective regs regs_injective

theorem regs_apply (w : RegFile) (i : Fin 16) : regs w i = w[i] := rfl

/-- A write by index. -/
theorem regs_set (w : RegFile) (p : Fin 16) (v : Word) : regs (w.set p v) = Function.update (regs w) p v := by
  funext i
  rw [regs_apply, RegFile.getElem_set, Function.update_apply, regs_apply]

/-- The model's rotation is the spec's formula (00_scope R9). -/
theorem rotl_eq_rotate (x : Word) {n : Nat} (hn : n < 32) : rotl x n = rotate x n :=
  BitVec.rotateLeft_eq_rotateLeftAux_of_lt hn

/-- The three lines of `arx` by index (40 R100). -/
theorem regs_arx (p q r : Fin 16) {n : Nat} (hn : n < 32) (w : RegFile) :
    regs (arx p q r n w) = stage p q r n (regs w) := by
  simp only [arx, stage, ← regs_apply, regs_set, rotl_eq_rotate _ hn]

/-- The four stages of `quarter` by index, whatever the indices (40 R101, R103). -/
theorem regs_quarter (a b c d : Fin 16) (w : RegFile) :
    regs (quarter a b c d w) = quarterSteps a b c d (regs w) := by
  simp only [quarter, quarterSteps, regs_arx, Nat.reduceLT]

/-- The eight quarter-rounds of a double-round by index (40 R104). -/
theorem regs_doubleRound (w : RegFile) : regs (doubleRound w) = doubleRoundSteps (regs w) := by
  simp only [doubleRound, doubleRoundTuples, List.foldl_cons, List.foldl_nil, regs_quarter, doubleRoundSteps]

/-! ### QR's word -/

/-- A word of format Q as its fields moved to their places (30_encoding R81, 40 R102). -/
theorem encodeQ_eq_or (opc : BitVec 8) (a b c d : Fin 16) :
    encodeQ opc a b c d = opc.setWidth 32 ||| BitVec.ofNat 32 a.val <<< 8 ||| BitVec.ofNat 32 b.val <<< 12
      ||| BitVec.ofNat 32 c.val <<< 16 ||| BitVec.ofNat 32 d.val <<< 20 := by
  have hfield (x : Fin 16) : (BitVec.ofFin x : BitVec 4).setWidth 32 = BitVec.ofNat 32 x.val :=
    (BitVec.ofNat_toNat 32 _).symm
  have hreverse (v w x y z : Word) : v ||| w ||| x ||| y ||| z = z ||| y ||| x ||| w ||| v := by ac_rfl
  rw [← BitVec.setWidth_eq (encodeQ opc a b c d)]
  simp only [encodeQ, BitVec.setWidth_append_eq_shiftLeft_setWidth_or, hfield, BitVec.shiftLeft_or_distrib,
    ← BitVec.shiftLeft_add, BitVec.setWidth_zero, BitVec.zero_shiftLeft, BitVec.zero_or]
  exact hreverse _ _ _ _ _

/-! ### The quarter-round of a tuple of indices -/

/-- The four indices of a quarter-round. -/
abbrev IndexTuple := Fin 16 × Fin 16 × Fin 16 × Fin 16

/-- The indices of a tuple as a list. -/
def indices (t : IndexTuple) : List (Fin 16) := [t.1, t.2.1, t.2.2.1, t.2.2.2]

/-- The quarter-round of a tuple of indices. -/
def quarterOf (w : RegFile) (t : IndexTuple) : RegFile := quarter t.1 t.2.1 t.2.2.1 t.2.2.2 w

/-- `s` after a command that completed and wrote `w` to W. -/
def State.completedWith (s : State) (w : RegFile) : State := { s with W := w, status := s.status.completed }

theorem State.completedWith_W (s : State) (w : RegFile) : (s.completedWith w).W = w := rfl

theorem State.completedWith_completedWith (s : State) (w w' : RegFile) :
    (s.completedWith w).completedWith w' = s.completedWith w' := rfl

/-- QR of a tuple writes the quarter-round of the tuple to W (40 R102). -/
theorem exec_qrOf (t : IndexTuple) (s : State) : exec (qrOf t) s = .next (s.completedWith (quarterOf s.W t)) :=
  exec_qr _ _ _ _ s

/-- DROUND writes the quarter-rounds of its tuples in order to W (40 R105). -/
theorem exec_dround_foldl (s : State) :
    exec .dround s = .next (s.completedWith (doubleRoundTuples.foldl quarterOf s.W)) :=
  exec_dround s

/-- A quarter-round leaves the registers outside its tuple (40 R102). -/
theorem quarterOf_other {t : IndexTuple} {i : Fin 16} (hi : i ∉ indices t) (w : RegFile) :
    (quarterOf w t)[i] = w[i] := by
  simp only [indices, List.mem_cons, List.not_mem_nil, or_false, not_or] at hi
  obtain ⟨ha, hb, hc, hd⟩ := hi
  exact quarter_other _ _ _ _ i w ha hb hc hd

/-! ### Quarter-rounds on disjoint indices commute -/

/-- Two register files agree on the registers of a list. -/
def AgreeOn (l : List (Fin 16)) (w w' : RegFile) : Prop := ∀ i ∈ l, w[i] = w'[i]

/-- A write of one value to both register files keeps their agreement. -/
theorem AgreeOn.set {l : List (Fin 16)} {w w' : RegFile} (h : AgreeOn l w w') (p : Fin 16) {v v' : Word}
    (hv : v = v') : AgreeOn l (w.set p v) (w'.set p v') := fun i hi => by
  rw [RegFile.getElem_set, RegFile.getElem_set, hv, h i hi]

/-- A stage reads p, q and r only (40 R100). -/
theorem AgreeOn.arx {l : List (Fin 16)} {w w' : RegFile} (h : AgreeOn l w w') {p q r : Fin 16} (n : Nat)
    (hp : p ∈ l) (hq : q ∈ l) (hr : r ∈ l) : AgreeOn l (arx p q r n w) (arx p q r n w') := by
  have hadded := h.set p (congrArg₂ (· + ·) (h p hp) (h q hq))
  have hxored := hadded.set r (congrArg₂ (· ^^^ ·) (hadded r hr) (hadded p hp))
  exact hxored.set r (congrArg (rotl · n) (hxored r hr))

/-- A quarter-round reads the registers of its tuple only (40 R101). -/
theorem agreeOn_quarterOf {t : IndexTuple} {w w' : RegFile} (h : AgreeOn (indices t) w w') :
    AgreeOn (indices t) (quarterOf w t) (quarterOf w' t) := by
  obtain ⟨a, b, c, d⟩ := t
  have ha : a ∈ indices (a, b, c, d) := by simp [indices]
  have hb : b ∈ indices (a, b, c, d) := by simp [indices]
  have hc : c ∈ indices (a, b, c, d) := by simp [indices]
  have hd : d ∈ indices (a, b, c, d) := by simp [indices]
  exact (((h.arx 16 ha hb hd).arx 12 hc hd hb).arx 8 ha hb hd).arx 7 hc hd hb

/-- On the registers of its own tuple a quarter-round has the same result before and after one on disjoint indices. -/
theorem agreeOn_quarterOf_comm {t u : IndexTuple} (h : (indices t).Disjoint (indices u)) (w : RegFile) :
    AgreeOn (indices t) (quarterOf (quarterOf w t) u) (quarterOf (quarterOf w u) t) := fun i hi =>
  calc (quarterOf (quarterOf w t) u)[i] = (quarterOf w t)[i] := quarterOf_other (h hi) _
    _ = (quarterOf (quarterOf w u) t)[i] := agreeOn_quarterOf (fun j hj => (quarterOf_other (h hj) w).symm) i hi

/-- Quarter-rounds on disjoint indices commute (40 R106). -/
theorem quarterOf_comm {t u : IndexTuple} (h : (indices t).Disjoint (indices u)) (w : RegFile) :
    quarterOf (quarterOf w t) u = quarterOf (quarterOf w u) t := by
  refine regs_injective (funext fun i => ?_)
  rw [regs_apply, regs_apply]
  by_cases ht : i ∈ indices t
  · exact agreeOn_quarterOf_comm h w i ht
  · by_cases hu : i ∈ indices u
    · exact (agreeOn_quarterOf_comm h.symm w i hu).symm
    · rw [quarterOf_other hu, quarterOf_other ht, quarterOf_other ht, quarterOf_other hu]

/-! ### Commands one after another -/

/-- A run of commands as a fold over the outcome so far. -/
theorem foldl_andThen (l : List Instr) (s : State) :
    l.foldl (fun o i => andThen o (exec i)) (Host.Outcome.next s) = runCommands l s := by
  induction l generalizing s with
  | nil => rfl
  | cons i rest ih =>
    obtain ⟨t, ht⟩ := exec_next i s
    rw [List.foldl_cons, runCommands, andThen, ht, andThen, ih]

/-- Commands that commute by twos give one outcome in any order. -/
theorem runCommands_perm {l l' : List Instr} (h : l.Perm l')
    (hcomm : ∀ i ∈ l', ∀ j ∈ l', ∀ s, andThen (exec i s) (exec j) = andThen (exec j s) (exec i)) (s : State) :
    runCommands l s = runCommands l' s := by
  rw [← foldl_andThen, ← foldl_andThen]
  refine (h.symm.foldl_eq' (fun i hi j hj o => ?_) (Host.Outcome.next s)).symm
  cases o with
  | next s => exact hcomm i hi j hj s
  | fault r => rfl
  | refused r => rfl

/-- Two QRs write one quarter-round after the other to W. -/
theorem andThen_exec_qrOf (t u : IndexTuple) (s : State) :
    andThen (exec (qrOf t) s) (exec (qrOf u)) = .next (s.completedWith (quarterOf (quarterOf s.W t) u)) := by
  rw [exec_qrOf, andThen, exec_qrOf, State.completedWith_W, State.completedWith_completedWith]

/-- QRs one after another write their quarter-rounds in order to W. -/
theorem runCommands_map_qrOf (t : IndexTuple) (l : List IndexTuple) (s : State) :
    runCommands ((t :: l).map qrOf) s = .next (s.completedWith ((t :: l).foldl quarterOf s.W)) := by
  induction l generalizing t s with
  | nil => rw [List.map_cons, runCommands, exec_qrOf]; rfl
  | cons u l ih =>
    rw [List.map_cons, runCommands, exec_qrOf, andThen, ih, State.completedWith_W,
      State.completedWith_completedWith, List.foldl_cons (a := t)]

/-- Quarter-rounds that do not commute on W make their QRs' outcomes depend on the order. -/
theorem runCommands_pair_ne {t u : IndexTuple} {s : State}
    (h : quarterOf (quarterOf s.W t) u ≠ quarterOf (quarterOf s.W u) t) :
    runCommands [qrOf t, qrOf u] s ≠ runCommands [qrOf u, qrOf t] s := by
  intro heq
  have hnext := (runCommands_map_qrOf t [u] s).symm.trans (heq.trans (runCommands_map_qrOf u [t] s))
  have hW := congrArg State.W (Host.Outcome.next.inj hnext)
  simp only [State.completedWith_W, List.foldl_cons, List.foldl_nil] at hW
  exact h hW

/-- QRs of which any two have the same or disjoint indices give one outcome in any order. -/
theorem runCommands_perm_map_qrOf {l : List IndexTuple}
    (hl : ∀ t ∈ l, ∀ u ∈ l, t = u ∨ (indices t).Disjoint (indices u)) {m : List Instr} (h : m.Perm (l.map qrOf))
    (s : State) : runCommands m s = runCommands (l.map qrOf) s := by
  refine runCommands_perm h (fun i hi j hj s => ?_) s
  obtain ⟨t, ht, rfl⟩ := List.mem_map.1 hi
  obtain ⟨u, hu, rfl⟩ := List.mem_map.1 hj
  rcases hl t ht u hu with rfl | hdisjoint
  · rfl
  · rw [andThen_exec_qrOf, andThen_exec_qrOf, quarterOf_comm hdisjoint]

/-! ### A double-round as its columns and its diagonals -/

/-- The tuples of the column quarter-rounds (40 R104, steps 1 to 4). -/
def columnTuples : List IndexTuple := doubleRoundTuples.take 4

/-- The tuples of the diagonal quarter-rounds (40 R104, steps 5 to 8). -/
def diagonalTuples : List IndexTuple := doubleRoundTuples.drop 4

theorem expand_cround : Pseudo.cround.expand = columnTuples.map qrOf := rfl

theorem expand_diaground : Pseudo.diaground.expand = diagonalTuples.map qrOf := rfl

theorem expand_cround_append_diaground :
    Pseudo.cround.expand ++ Pseudo.diaground.expand = doubleRoundTuples.map qrOf := rfl

theorem columnTuples_disjoint :
    ∀ t ∈ columnTuples, ∀ u ∈ columnTuples, t = u ∨ (indices t).Disjoint (indices u) := by
  simp only [List.disjoint_left, ← List.all_iff_forall_prop]
  decide

theorem diagonalTuples_disjoint :
    ∀ t ∈ diagonalTuples, ∀ u ∈ diagonalTuples, t = u ∨ (indices t).Disjoint (indices u) := by
  simp only [List.disjoint_left, ← List.all_iff_forall_prop]
  decide

/-- A column and a diagonal quarter-round share one index, and on the register file of sixteen ones they do not commute
(40 R106). -/
theorem columnTuples_diagonalTuples_not_comm : ∀ t ∈ columnTuples, ∀ u ∈ diagonalTuples,
    quarterOf (quarterOf (RegFile.fill 1#32) t) u ≠ quarterOf (quarterOf (RegFile.fill 1#32) u) t := by
  simp only [← List.all_iff_forall_prop]
  decide

/-! ### A quarter-round on distinct indices loses nothing -/

/-- A write to p loses nothing if the value written and the other registers give back what p held. -/
theorem set_injective {p : Fin 16} {g : RegFile → Word}
    (hg : ∀ w w' : RegFile, (∀ i, i ≠ p → w[i] = w'[i]) → g w = g w' → w[p] = w'[p]) :
    Function.Injective fun w : RegFile => w.set p (g w) := by
  intro w w' h
  have hat : ∀ i : Fin 16, (if i = p then g w else w[i]) = if i = p then g w' else w'[i] := fun i => by
    rw [← RegFile.getElem_set, ← RegFile.getElem_set]
    exact congrFun (congrArg regs h) i
  have hother : ∀ i, i ≠ p → w[i] = w'[i] := fun i hi => by simpa only [if_neg hi] using hat i
  have hp : w[p] = w'[p] := hg w w' hother (by simpa only [if_pos] using hat p)
  refine regs_injective (funext fun i => ?_)
  by_cases hi : i = p
  · exact hi ▸ hp
  · exact hother i hi

/-- A rotation to the left is undone by the rotation to the right. -/
theorem rotateRight_rotateLeft (x : Word) (n : Nat) : (x.rotateLeft n).rotateRight n = x := by
  ext i hi
  rw [BitVec.getElem_rotateRight]
  split
  · rw [BitVec.getElem_rotateLeft, dif_neg (by omega)]
    simp only [Nat.add_sub_cancel_left]
  · rw [BitVec.getElem_rotateLeft, dif_pos (by omega)]
    congr 1
    omega

theorem rotl_injective (n : Nat) : Function.Injective (rotl · n) :=
  Function.LeftInverse.injective (g := (·.rotateRight n)) fun x => rotateRight_rotateLeft x n

/-- A stage on p apart from q and r loses nothing: each of its three writes can be undone (40 R100, R107). -/
theorem arx_injective {p q r : Fin 16} (hq : q ≠ p) (hr : r ≠ p) (n : Nat) : Function.Injective (arx p q r n) := by
  have hadd : Function.Injective fun w : RegFile => w.set p (w[p] + w[q]) :=
    set_injective fun w w' h hv => add_right_cancel (hv.trans (congrArg (w'[p] + ·) (h q hq).symm))
  have hxor : Function.Injective fun w : RegFile => w.set r (w[r] ^^^ w[p]) :=
    set_injective fun w w' h hv => (BitVec.xor_left_inj _).1 (hv.trans (congrArg (w'[r] ^^^ ·) (h p hr.symm).symm))
  have hrot : Function.Injective fun w : RegFile => w.set r (rotl w[r] n) :=
    set_injective fun w w' _ hv => rotl_injective n hv
  exact hrot.comp (hxor.comp hadd)

/-- A quarter-round on four distinct indices loses nothing (40 R107). -/
theorem quarterOf_injective {t : IndexTuple} (ht : (indices t).Nodup) : Function.Injective (quarterOf · t) := by
  obtain ⟨a, b, c, d⟩ := t
  simp only [indices, List.nodup_cons, List.mem_cons, List.not_mem_nil, or_false, not_or] at ht
  obtain ⟨⟨hab, -, had⟩, ⟨hbc, -⟩, hcd, -⟩ := ht
  have hone := arx_injective (Ne.symm hab) (Ne.symm had)
  have htwo := arx_injective (Ne.symm hcd) hbc
  exact (htwo 7).comp ((hone 8).comp ((htwo 12).comp (hone 16)))

theorem foldl_quarterOf_injective {l : List IndexTuple} (hl : ∀ t ∈ l, (indices t).Nodup) :
    Function.Injective fun w => l.foldl quarterOf w := by
  induction l with
  | nil => exact Function.injective_id
  | cons t l ih =>
    obtain ⟨ht, hl⟩ := List.forall_mem_cons.1 hl
    exact (ih hl).comp (quarterOf_injective ht)

/-- A command that writes `f` of W to W meets each target from exactly one W if `f` is injective, since there are
finitely many register files. -/
theorem existsUnique_W_of_injective {i : Instr} {f : RegFile → RegFile} (hf : Function.Injective f)
    (hexec : ∀ s, exec i s = .next (s.completedWith (f s.W))) (s : State) (target : RegFile) :
    ∃! w : RegFile, ∃ t, exec i { s with W := w } = .next t ∧ t.W = target := by
  have hiff : ∀ w, (∃ t, exec i { s with W := w } = .next t ∧ t.W = target) ↔ f w = target := fun w => by
    rw [hexec]
    constructor
    · rintro ⟨t, ht, hW⟩
      cases ht
      exact hW
    · exact fun h => ⟨_, rfl, h⟩
  have := RegFile.finite
  simpa only [hiff] using (Finite.injective_iff_bijective.1 hf).existsUnique target

end Sys2Proof.Machine

open Sys2Proof Sys2Proof.Machine Sys2Proof.Claims

/-- Settles O26: the word field by field, and the model's four stages by index. -/
theorem quarterRoundIsTwelveOperations : Obligations.QuarterRoundIsTwelveOperations := fun a b c d s =>
  ⟨encodeQ_eq_or 0x01#8 a b c d, _, exec_qr a b c d s, congrFun (regs_quarter a b c d s.W)⟩

/-- Settles O27: the model's eight quarter-rounds by index. -/
theorem doubleRoundIsEightQuarterRounds : Obligations.DoubleRoundIsEightQuarterRounds := fun s =>
  ⟨rfl, _, exec_dround s, congrFun (regs_doubleRound s.W)⟩

/-- Settles O28: a double-round is a fold of quarter-rounds, those on disjoint indices commute, and the register file
of sixteen ones tells a column and a diagonal apart. -/
theorem doubleRoundIsColumnThenDiagonal : Obligations.DoubleRoundIsColumnThenDiagonal := by
  refine ⟨fun s => ?_, fun s l h => ?_, fun s l h => ?_, fun p hp q hq => ?_⟩
  · rw [expand_cround_append_diaground, exec_dround_foldl]
    exact runCommands_map_qrOf _ _ s
  · exact runCommands_perm_map_qrOf columnTuples_disjoint h s
  · exact runCommands_perm_map_qrOf diagonalTuples_disjoint h s
  · rw [expand_cround] at hp
    rw [expand_diaground] at hq
    obtain ⟨t, ht, rfl⟩ := List.mem_map.1 hp
    obtain ⟨u, hu, rfl⟩ := List.mem_map.1 hq
    exact ⟨{ State.reset with W := RegFile.fill 1#32 },
      runCommands_pair_ne (columnTuples_diagonalTuples_not_comm t ht u hu)⟩

/-- Settles O29: each write of a quarter-round on distinct indices can be undone, so QR and DROUND are injective on the
finitely many register files. -/
theorem quarterRoundIsBijective : Obligations.QuarterRoundIsBijective := by
  refine ⟨fun a b c d hnodup => ?_, fun a b c d s => ?_, ?_⟩
  · exact existsUnique_W_of_injective (quarterOf_injective (t := (a, b, c, d)) hnodup) (exec_qr a b c d)
  · exact ⟨_, exec_qr a b c d s, fun i hi => quarterOf_other (t := (a, b, c, d)) hi s.W⟩
  · have hdistinct : ∀ t ∈ doubleRoundTuples, (indices t).Nodup := List.all_iff_forall_prop.1 (by decide)
    exact existsUnique_W_of_injective (foldl_quarterOf_injective hdistinct) exec_dround_foldl

end

section
/-! PROOFS. The block function engine (spec/41_block.md): the code of the error a command's checks find, the initial
state and the double-rounds by index, and BINIT, DROUNDs and BFINAL as one BLOCK. -/

namespace Sys2Proof.Machine

open Sys2Proof.Claims

/-! ### The code of the error the checks find -/

/-- The code in STATUS.ERR of what a command's checks found, 0 for no error (60_exceptions R210, R214). -/
def failureCode : Option ErrorKind → BitVec 4
  | none => 0#4
  | some e => e.code

/-- The code is 0 exactly without an error. -/
theorem failureCode_eq_zero_iff {failure : Option ErrorKind} : failureCode failure = 0#4 ↔ failure = none := by
  cases failure with
  | none => simp [failureCode]
  | some e => simp [failureCode, e.code_ne_zero]

/-- A command whose checks found an error changes STATUS only, by the code of the error (60_exceptions R220). -/
theorem State.command_of_failureCode_ne_zero {s effect : State} {failure : Option ErrorKind}
    (h : failureCode failure ≠ 0#4) : s.command failure effect = failed s (failureCode failure) := by
  cases failure with
  | none => exact absurd rfl h
  | some e => rfl

/-- A command whose checks found no error performs its effect and completes (60_exceptions R214). -/
theorem State.command_of_failureCode_eq_zero {s effect : State} {failure : Option ErrorKind}
    (h : failureCode failure = 0#4) : s.command failure effect = effect.complete := by
  rw [failureCode_eq_zero_iff.1 h, State.command_none]

/-- The first check decides unless it passes (60_exceptions R219). -/
theorem failureCode_cons {p : Prop} [Decidable p] {c : Check} (hc : c.1 = false ↔ ¬p) (rest : List Check) :
    failureCode (firstFailure (c :: rest)) = if p then c.2.code else failureCode (firstFailure rest) := by
  obtain ⟨failed, e⟩ := c
  cases failed with
  | false => rw [if_neg (hc.1 rfl)]; rfl
  | true =>
    have hp : p := by simpa using hc
    rw [if_pos hp]; rfl

/-- The last check of BINIT and BLOCK: both buffers fit in MEM, or RangeError (20_memory R65, 60_exceptions R216). -/
theorem failureCode_keyNonceRange (s : State) :
    failureCode (firstFailure [s.rangeCheck [s.keyBuffer, s.nonceBuffer]]) =
      if fits s s.KEY_ADDR 32 ∧ fits s s.NONCE_ADDR 12 then 0#4 else 5#4 := by
  rw [failureCode_cons (p := ¬(fits s s.KEY_ADDR 32 ∧ fits s s.NONCE_ADDR 12)) (by simp [State.rangeCheck_pass]),
    ite_not]
  rfl

/-- BINIT's error code is that of its checks (41_block R124). -/
theorem failureCode_binitFailure (s : State) : failureCode (binitFailure s) = binitErr s := by
  rw [binitFailure, failureCode_cons (s.keyLenCheck_pass.trans not_not.symm),
    failureCode_cons (s.nonceLenCheck_pass.trans not_not.symm), failureCode_keyNonceRange]
  rfl

/-- BLOCK's error code is that of its checks (41_block R127). -/
theorem failureCode_blockFailure (s : State) : failureCode (blockFailure s) = blockErr s := by
  rw [blockFailure, failureCode_cons (s.keyLenCheck_pass.trans not_not.symm),
    failureCode_cons (s.nonceLenCheck_pass.trans not_not.symm), failureCode_cons (s.roundsCheck_pass.trans not_or.symm),
    failureCode_keyNonceRange]
  rfl

/-- BLOCK makes all of BINIT's checks, so BINIT raises nothing where BLOCK does not (41_block R124, R127). -/
theorem binitErr_eq_zero_of_blockErr {s : State} (h : blockErr s = 0#4) : binitErr s = 0#4 := by
  rw [← failureCode_blockFailure, failureCode_eq_zero_iff, blockFailure, firstFailure_none] at h
  rw [← failureCode_binitFailure, failureCode_eq_zero_iff, binitFailure, firstFailure_none]
  simp only [List.forall_mem_cons] at h ⊢
  obtain ⟨hkey, hnonce, -, hrange⟩ := h
  exact ⟨hkey, hnonce, hrange⟩

/-! ### The block function by index -/

/-- The words of the key are those of MEM at KEY_ADDR (41_block R121). -/
theorem le32_key (s : State) {j : Nat} (hj : j < 8) : le32 s.key j = wordAt s (s.KEY_ADDR.toNat + 4 * j) :=
  le32_readBuffer s s.keyBuffer (by rw [State.keyBuffer_len]; omega)

/-- The words of the nonce are those of MEM at NONCE_ADDR (41_block R121). -/
theorem le32_nonce (s : State) {j : Nat} (hj : j < 3) : le32 s.nonce j = wordAt s (s.NONCE_ADDR.toNat + 4 * j) :=
  le32_readBuffer s s.nonceBuffer (by rw [State.nonceBuffer_len]; omega)

/-- The initial state by index (41_block R121). -/
theorem regs_initState (s : State) (ctr : Word) : regs (initState s.key ctr s.nonce) = initWords s ctr := by
  funext i
  simp only [initState, le32_key s, le32_nonce s, Nat.reduceLT]
  fin_cases i <;> rfl

/-- Double-rounds one after another by index (40_quarter_round R105). -/
theorem regs_doubleRounds (k : Nat) (w : RegFile) : regs (doubleRounds k w) = doubleRoundSteps^[k] (regs w) := by
  induction k generalizing w with
  | zero => rfl
  | succ k ih => rw [doubleRounds, ih, regs_doubleRound, Function.iterate_succ_apply]

/-- The elementwise sum by index (41_block R125). -/
theorem regs_addWords (x w : RegFile) (i : Fin 16) : regs (addWords x w) i = regs x i + regs w i :=
  Vector.getElem_zipWith i.isLt

/-- The working state of the block function by index (41_block R122). -/
theorem regs_workingState (s : State) (ctr : Word) (n : Nat) :
    regs (workingState s.key ctr s.nonce n) = mixedWords s ctr n := by
  rw [workingState, regs_doubleRounds, regs_initState, mixedWords]

/-- The output words of the block function by index (41_block R122). -/
theorem regs_blockOutput (s : State) (ctr : Word) (n : Nat) :
    regs (blockOutput s.key ctr s.nonce n) = outWords s ctr n := by
  funext i
  rw [blockOutput, regs_addWords, regs_initState, regs_workingState, outWords]

/-! ### BINIT and BLOCK by their error codes -/

/-- BINIT with an error (41_block R124). -/
theorem exec_binit_failed {s : State} (h : binitErr s ≠ 0#4) : exec .binit s = .next (failed s (binitErr s)) := by
  rw [← failureCode_binitFailure] at h ⊢
  rw [exec_binit, State.command_of_failureCode_ne_zero h]

/-- BINIT without an error (41_block R124). -/
theorem exec_binit_ok {s : State} (h : binitErr s = 0#4) :
    exec .binit s = .next { s with X := s.builtState, W := s.builtState, status := okStatus s } := by
  rw [← failureCode_binitFailure] at h
  rw [exec_binit, State.command_of_failureCode_eq_zero h]
  rfl

/-- BLOCK with an error (41_block R127). -/
theorem exec_block_failed {s : State} (h : blockErr s ≠ 0#4) : exec .block s = .next (failed s (blockErr s)) := by
  rw [← failureCode_blockFailure] at h ⊢
  rw [exec_block, State.command_of_failureCode_ne_zero h]

/-- `s` after a command, or commands, that left a keystream block of k double-rounds (41_block R127, R131). -/
def State.completedBlock (s : State) (k : Nat) : State :=
  { s with
    X := s.builtState
    W := doubleRounds k s.builtState
    KS := addWords s.builtState (doubleRounds k s.builtState)
    status := s.status.completed }

/-- BLOCK without an error leaves the block of ROUNDS / 2 double-rounds (41_block R127). -/
theorem exec_block_ok {s : State} (h : blockErr s = 0#4) :
    exec .block s = .next (s.completedBlock (s.ROUNDS.toNat / 2)) := by
  rw [← failureCode_blockFailure] at h
  rw [exec_block, State.command_of_failureCode_eq_zero h]
  rfl

/-! ### BLOCKSTEPS -/

/-- DROUNDs and then BFINAL, from any state (40_quarter_round R105, 41_block R125). -/
theorem runCommands_drounds_bfinal (m : Nat) (s : State) :
    runCommands (List.replicate m Instr.dround ++ [Instr.bfinal]) s =
      .next
        { s with
          W := doubleRounds m s.W, KS := addWords s.X (doubleRounds m s.W), status := s.status.completed } := by
  induction m generalizing s with
  | zero => rfl
  | succ m ih =>
    rw [List.replicate_succ, List.cons_append, runCommands, exec_dround, andThen, ih]
    rfl

/-- BLOCKSTEPS m leaves the block of m double-rounds where BINIT raises nothing, whatever ROUNDS holds
(41_block R131). -/
theorem runCommands_blocksteps {s : State} (h : binitErr s = 0#4) (m : Nat) :
    runCommands (Pseudo.blocksteps m).expand s = .next (s.completedBlock m) := by
  rw [Pseudo.expand, runCommands, exec_binit_ok h, andThen, runCommands_drounds_bfinal]
  rfl

end Sys2Proof.Machine

open Sys2Proof Sys2Proof.Machine Sys2Proof.Claims

/-- Settles O30: BINIT by its error code, and the built state by index. -/
theorem binitBuildsInitialState : Obligations.BinitBuildsInitialState := fun s =>
  ⟨rfl, exec_binit_failed, fun h => ⟨_, exec_binit_ok h, congrFun (regs_initState s s.blockCounter)⟩⟩

/-- Settles O31: the sums by index; BFINAL reads neither KS nor STATUS, so a second one repeats the first. -/
theorem bfinalAddsIntoKeystream : Obligations.BfinalAddsIntoKeystream := fun s =>
  ⟨rfl, _, exec_bfinal s, regs_addWords s.X s.W, exec_bfinal _⟩

/-- Settles O32: BLOCK by its error code, and its three results by index. -/
theorem blockComputesKeystreamBlock : Obligations.BlockComputesKeystreamBlock := fun s =>
  ⟨rfl, exec_block_failed, fun h => ⟨_, _, _, exec_block_ok h, fun i =>
    ⟨congrFun (regs_initState s s.blockCounter) i, congrFun (regs_workingState s s.blockCounter s.rounds) i,
      congrFun (regs_blockOutput s s.blockCounter s.rounds) i⟩⟩⟩

/-- Settles O33: BLOCKSTEPS m and BLOCK both leave the block of m double-rounds, and BLOCKSTEPS makes no check of
ROUNDS. -/
theorem blockStepsEqualBlock : Obligations.BlockStepsEqualBlock := by
  refine ⟨fun s m _ hm hrounds h => ?_, fun s m hblock hbinit => ⟨?_, ?_⟩⟩
  · have hhalf : s.ROUNDS.toNat / 2 = m := by
      rw [hrounds, BitVec.toNat_ofNat]
      omega
    rw [runCommands_blocksteps (binitErr_eq_zero_of_blockErr h), exec_block_ok h, hhalf]
  · exact ⟨_, runCommands_blocksteps hbinit m, rfl⟩
  · have hfailed := exec_block_failed (s := s) (by rw [hblock]; decide)
    rwa [hblock] at hfailed

end

section
/-! PROOFS. The keystream generator (spec/42_stream.md): `xor_stream` byte by byte, and STREAM by its error code. -/

namespace Sys2Proof.Machine

open Sys2Proof.Claims

/-! ### The keystream by byte -/

/-- Byte j of the keystream from counter `base` on: byte j mod 64 of the block of counter base + j div 64
(42_stream R140, R142). -/
def keystreamByte (key nonce : List Byte) (base : Word) (n j : Nat) : Byte :=
  (keyStream key nonce (base + BitVec.ofNat 32 (j / 64)) n)[j % 64]'(by rw [keyStream_length]; omega)

/-- The first 64 bytes are the block of counter `base`. -/
theorem keystreamByte_of_lt (key nonce : List Byte) (base : Word) (n : Nat) {j : Nat} (hj : j < 64) :
    keystreamByte key nonce base n j = (keyStream key nonce base n)[j]'(by rwa [keyStream_length]) := by
  simp only [keystreamByte, Nat.div_eq_of_lt hj, Nat.mod_eq_of_lt hj, BitVec.add_zero]

/-- The bytes after the first 64 are the keystream of the next counter (42_stream R140). -/
theorem keystreamByte_add_64 (key nonce : List Byte) (base : Word) (n j : Nat) :
    keystreamByte key nonce base n (j + 64) = keystreamByte key nonce (base + 1#32) n j := by
  have hctr : base + BitVec.ofNat 32 (j / 64 + 1) = base + 1#32 + BitVec.ofNat 32 (j / 64) := by
    rw [BitVec.ofNat_add, BitVec.add_comm (BitVec.ofNat 32 (j / 64)), BitVec.add_assoc]
  simp only [keystreamByte, Nat.add_div_right j (show 0 < 64 by decide), Nat.add_mod_right, hctr]

/-- A chunk of at most 64 bytes XORed with its block, byte by byte (42_stream R142). -/
theorem xorBytes_eq_mapIdx (key nonce : List Byte) (base : Word) (n : Nat) {chunk : List Byte}
    (h : chunk.length ≤ 64) :
    xorBytes chunk (keyStream key nonce base n) =
      chunk.mapIdx fun j b => b ^^^ keystreamByte key nonce base n j := by
  apply List.ext_getElem (by rw [xorBytes_length _ _ (by rwa [keyStream_length]), List.length_mapIdx])
  intro j _ hj
  rw [List.length_mapIdx] at hj
  have hlt : j < 64 := by omega
  simp only [xorBytes, List.getElem_zipWith, List.getElem_mapIdx, keystreamByte_of_lt key nonce base n hlt]

/-- `xor_stream` XORs byte j of the message with byte j of the keystream (42_stream R142). -/
theorem xorStream_eq_mapIdx (key nonce : List Byte) (base : Word) (n : Nat) (m : List Byte) :
    xorStream key nonce base n m = m.mapIdx fun j b => b ^^^ keystreamByte key nonce base n j := by
  induction m using message_induction 64 (by decide) generalizing base with
  | nil => rw [xorStream_nil, List.mapIdx_nil]
  | step m hm ih =>
    rw [xorStream_step _ _ _ _ _ hm, xorBytes_eq_mapIdx _ _ _ _ (m.length_take_le 64), ih]
    conv_rhs => rw [← List.take_append_drop 64 m, List.mapIdx_append]
    congr 1
    by_cases hlen : 64 ≤ m.length
    · simp only [List.length_take_of_le hlen, keystreamByte_add_64]
    · rw [List.drop_of_length_le (by omega), List.mapIdx_nil, List.mapIdx_nil]

/-- An 8-bit truncation needs no mask. -/
theorem setWidth_and_255 (x : Word) : (x &&& 0xff#32).setWidth 8 = x.setWidth 8 := by
  rw [BitVec.setWidth_and]
  exact BitVec.and_allOnes

/-- The keystream of the state's key and nonce is the spec's formula (41_block R126, 42_stream R142). -/
theorem keystreamByte_eq_streamByte (s : State) (base : Word) (n j : Nat) :
    keystreamByte s.key s.nonce base n j = streamByte s base n j := by
  have hbyte := ser_getElem? (blockOutput s.key (base + BitVec.ofNat 32 (j / 64)) s.nonce n)
    (Nat.mod_lt j (show 0 < 64 by decide))
  rw [setWidth_and_255, ← regs_apply, regs_blockOutput] at hbyte
  exact (List.getElem_eq_iff _).2 hbyte

/-! ### STREAM by its error code -/

/-- A last check of ranges: every buffer fits in MEM, or RangeError (20_memory R65, 60_exceptions R216). -/
theorem failureCode_rangeCheck (s : State) {buffers : List Buffer} {p : Prop} [Decidable p]
    (hp : p ↔ ∀ b ∈ buffers, b.addr + b.len ≤ s.cfg.memSize) :
    failureCode (firstFailure [s.rangeCheck buffers]) = if p then 0#4 else 5#4 := by
  rw [failureCode_cons (((s.rangeCheck_pass buffers).trans hp.symm).trans not_not.symm), ite_not]
  rfl

/-- STREAM's error code is that of its checks (42_stream R143). -/
theorem failureCode_streamFailure (s : State) : failureCode (streamFailure s) = streamErr s := by
  rw [streamFailure, failureCode_cons (s.keyLenCheck_pass.trans not_not.symm),
    failureCode_cons (s.nonceLenCheck_pass.trans not_not.symm), failureCode_cons (s.roundsCheck_pass.trans not_or.symm),
    failureCode_rangeCheck s (p := fits s s.KEY_ADDR 32 ∧ fits s s.NONCE_ADDR 12 ∧ fits s s.IN_ADDR s.IN_LEN.toNat ∧
      fits s s.OUT_ADDR s.IN_LEN.toNat) (by simp)]
  rfl

/-- STREAM with an error (42_stream R143). -/
theorem exec_stream_failed {s : State} (h : streamErr s ≠ 0#4) :
    exec .stream s = .next (failed s (streamErr s)) := by
  rw [← failureCode_streamFailure] at h ⊢
  rw [exec_stream, State.command_of_failureCode_ne_zero h]

/-- STREAM without an error writes its output buffer and completes (42_stream R143). -/
theorem exec_stream_ok {s : State} (h : streamErr s = 0#4) :
    exec .stream s = .next
      (s.writeBytes s.OUT_ADDR.toNat (xorStream s.key s.nonce s.BASE_CTR s.rounds s.input)).complete := by
  rw [← failureCode_streamFailure] at h
  rw [exec_stream, State.command_of_failureCode_eq_zero h, State.outBuffer_addr]

/-- Byte j of the input message is byte j of the input buffer. -/
theorem State.input_getElem (s : State) {j : Nat} (hj : j < s.input.length) : s.input[j] = inByte s j :=
  s.readBuffer_getElem s.inBuffer j hj

/-- Every byte of MEM after a MemWrite of the transformed input (42_stream R143). -/
theorem readByte_writeBytes_xorStream (s : State) (out : Nat) (base : Word) (n a : Nat) :
    (s.writeBytes out (xorStream s.key s.nonce base n s.input)).readByte a =
      if inside out s.IN_LEN.toNat a then inByte s (a - out) ^^^ streamByte s base n (a - out)
      else s.readByte a := by
  rw [State.readByte_writeBytes]
  simp only [xorStream_eq_mapIdx, List.length_mapIdx, State.input_length, List.getElem_mapIdx,
    State.input_getElem, keystreamByte_eq_streamByte, dite_eq_ite]

end Sys2Proof.Machine

open Sys2Proof Sys2Proof.Machine Sys2Proof.Claims

/-- Settles O34: STREAM by its error code, and MEM after it byte by byte. -/
theorem streamXorsKeystream : Obligations.StreamXorsKeystream := fun s =>
  ⟨rfl, exec_stream_failed, fun h => ⟨_, exec_stream_ok h,
    readByte_writeBytes_xorStream s s.OUT_ADDR.toNat s.BASE_CTR s.rounds⟩⟩

/-- Settles O35: each byte is XORed twice with the same byte of the keystream. -/
theorem streamIsSelfInverse : Obligations.StreamIsSelfInverse := by
  refine fun key nonce base n m => ⟨?_, xorStream_length key nonce base n m⟩
  rw [xorStream_eq_mapIdx, xorStream_eq_mapIdx, List.mapIdx_mapIdx]
  apply List.ext_getElem (List.length_mapIdx)
  intro j _ _
  rw [List.getElem_mapIdx, Function.comp_apply, BitVec.xor_assoc, BitVec.xor_self, BitVec.xor_zero]

/-- Settles O36: the checks and the written bytes are those of the state with the other values, whether STREAM ends
with an error or completes. -/
theorem streamKeepsNoState : Obligations.StreamKeepsNoState := by
  intro s w x ks r sec tag acc k
  refine ⟨_, exec_stream s, (exec_stream _).trans ?_⟩
  -- None of STREAM's checks reads one of these registers (42_stream R145).
  change Host.Outcome.next (State.command _ (streamFailure s) _) = _
  cases streamFailure s with
  | some e => rfl
  | none => rfl

end

section
/-! PROOFS. The invariant of the core's states: each way a command or an access writes the state keeps it, and so does
every step (43_poly1305 R171, 10_state R24, 20_memory R61, 93 I11). -/

namespace Sys2Proof.Machine

/-! ### What keeps the invariant -/

namespace State.Inv

/-- The accesses to come are not in the invariant. -/
theorem withPending {s : State} (h : s.Inv) (rest : List HostAccess) : (s.withPending rest).Inv := { h with }

/-- The register files are not in the invariant. -/
theorem withFiles {s : State} (h : s.Inv) (w x ks : RegFile) : State.Inv { s with W := w, X := x, KS := ks } :=
  { h with }

/-- Completing writes ERR = 0. -/
theorem complete {s : State} (h : s.Inv) : s.complete.Inv := { h with err_legal := by simp }

/-- Every error code is legal (60_exceptions R210). -/
theorem raise {s : State} (h : s.Inv) (e : ErrorKind) : (s.raise e).Inv := { h with err_legal := e.code_le }

/-- Every phase but TRANSFORM is one a command may end in (44_aead R197). -/
theorem setPhase {s : State} (h : s.Inv) {p : Phase} (hp : p ≠ .TRANSFORM) : (s.setPhase p).Inv :=
  { h with phase_legal := by cases p <;> simp [Phase.code] at hp ⊢ }

/-- A command keeps the invariant if its effect does where its checks pass. -/
theorem command {s effect : State} {failure : Option ErrorKind} (h : s.Inv) (heffect : failure = none → effect.Inv) :
    (s.command failure effect).Inv := by
  cases failure with
  | none => exact (heffect rfl).complete
  | some e => exact h.raise e

/-- SEAL or OPEN keeps the invariant if its effect does where its checks pass. -/
theorem aeadCommand {s effect : State} {failure : Option ErrorKind} (h : s.Inv)
    (heffect : failure = none → effect.Inv) : (s.aeadCommand failure effect).Inv := by
  cases failure with
  | none => exact (heffect rfl).complete.setPhase (by decide)
  | some e => exact (h.raise e).setPhase (by cases e <;> decide)

/-- A MemWrite inside MEM (20_memory R61). -/
theorem writeBytes {s : State} (h : s.Inv) {a : Nat} {bs : List Byte} (ha : a + bs.length ≤ s.cfg.memSize) :
    (s.writeBytes a bs).Inv :=
  { h with
    mem_wf := Memory.wf_writeBytes bs s.mem a h.mem_wf
    mem_within := Memory.within_writeBytes s.cfg.memSize bs s.mem a h.mem_within ha }

/-- An accumulator reduced mod P (43_poly1305 R171). -/
theorem setAcc {s : State} (h : s.Inv) {a : Nat} (ha : a < P) : (s.setAcc a).Inv :=
  { h with acc_lt := (Nat.mod_le a (2 ^ 130)).trans_lt ha }

/-- A finalised accumulator, kept with its tag (43_poly1305 R171, R176). -/
theorem setAccTag {s : State} (h : s.Inv) {a : Nat} (ha : a < P) : (s.setAccTag a).Inv :=
  { h with acc_lt := (h.setAcc ha).acc_lt }

/-- A register write other than to CMD: none writes MEM, ACC, R, ERR or PHASE (10_state R28, R30). -/
theorem writeReg {s : State} (h : s.Inv) (r : RegName) (v : Word) : (writeReg r v s).Inv := by
  cases r <;> exact { h with }

/-- Reset leaves MEM and the parameters and zeroes the rest (70_reset R241, R242). -/
theorem applyReset {s : State} (h : s.Inv) : s.applyReset.Inv :=
  { h with
    acc_lt := P_pos
    r_clamped := BitVec.zero_and
    err_legal := Nat.zero_le 7
    phase_legal := .inl rfl }

end State.Inv

/-! ### Commands and steps -/

/-- A buffer of a range check that passed lies in MEM (20_memory R65). -/
theorem inRange_of_firstFailure_none {s : State} {checks : List Check} {b : Buffer}
    (h : firstFailure checks = none) (buffers : List Buffer) (hcheck : s.rangeCheck buffers ∈ checks)
    (hb : b ∈ buffers) :
    b.addr + b.len ≤ s.cfg.memSize :=
  (s.rangeCheck_pass buffers).1 ((firstFailure_none checks).1 h _ hcheck) b hb

/-- The multiplier MAC_KEY loads has no bit outside CLAMP_MASK (10_state R24, 43_poly1305 R161). -/
theorem multiplierOf_and_not_clampMask (mask : BitVec 128) (key : List Byte) :
    multiplierOf mask key &&& ~~~mask = 0#128 := by
  rw [multiplierOf, BitVec.and_assoc, BitVec.and_not_self]
  exact BitVec.and_zero

/-- Every command keeps the invariant. -/
theorem exec_inv {s : State} (h : s.Inv) (i : Instr) : ∃ t, exec i s = .next t ∧ t.Inv := by
  cases i with
  | qr a b c d => exact ⟨_, exec_qr a b c d s, (h.withFiles (quarter a b c d s.W) s.X s.KS).complete⟩
  | dround => exact ⟨_, exec_dround s, (h.withFiles (doubleRound s.W) s.X s.KS).complete⟩
  | binit => exact ⟨_, exec_binit s, h.command fun _ => h.withFiles _ _ _⟩
  | bfinal => exact ⟨_, exec_bfinal s, (h.withFiles s.W s.X (addWords s.X s.W)).complete⟩
  | block => exact ⟨_, exec_block s, h.command fun _ => h.withFiles _ _ _⟩
  | stream =>
    refine ⟨_, exec_stream s, h.command fun hpass => h.writeBytes ?_⟩
    rw [xorStream_length, State.input_length]
    exact inRange_of_firstFailure_none (s := s) (b := s.outBuffer) hpass
      [s.keyBuffer, s.nonceBuffer, s.inBuffer, s.outBuffer] (by simp) (by simp)
  | macKey =>
    exact ⟨_, exec_macKey s, h.command fun _ =>
      { h with acc_lt := P_pos, r_clamped := multiplierOf_and_not_clampMask s.cfg.clampMask s.key }⟩
  | macClear => exact ⟨_, exec_macClear s, (h.setAcc P_pos).complete⟩
  | macBlock => exact ⟨_, exec_macBlock s, h.command fun _ => h.setAcc (mulmod_lt _ _)⟩
  | macFinal => exact ⟨_, exec_macFinal s, (h.setAccTag (final_lt _ _)).complete⟩
  | macTag =>
    refine ⟨_, exec_macTag s, h.command fun hpass => (h.setAccTag (final_lt _ _)).writeBytes ?_⟩
    rw [tagBytes_length]
    exact inRange_of_firstFailure_none (s := s) (b := s.tagBuffer) hpass [s.inBuffer, s.tagBuffer] (by simp) (by simp)
  | aeadSeal =>
    refine ⟨_, exec_aeadSeal s, h.aeadCommand fun hpass => (h.writeBytes ?_).writeBytes ?_⟩
    · rw [State.sealed, aeadCipher, xorStream_length, State.input_length]
      exact inRange_of_firstFailure_none (s := s) (b := s.outBuffer) hpass s.aeadBuffers (by simp)
        (by simp [State.aeadBuffers])
    · rw [macFresh_length]
      exact inRange_of_firstFailure_none (s := s) (b := s.tagBuffer) hpass s.aeadBuffers (by simp)
        (by simp [State.aeadBuffers])
  | aeadOpen =>
    refine ⟨_, exec_aeadOpen s, h.aeadCommand fun hpass => h.writeBytes ?_⟩
    rw [aeadCipher, xorStream_length, State.input_length]
    exact inRange_of_firstFailure_none (s := s) (b := s.outBuffer) hpass s.aeadBuffers (by simp)
      (by simp [State.aeadBuffers])

/-- Serving one access keeps the invariant. -/
theorem Served.inv {s t : State} (hserved : Served s t) (h : s.Inv) : t.Inv := by
  cases hserved with
  | command i t hexec =>
    obtain ⟨u, hu, hinv⟩ := exec_inv h i
    cases hexec.symm.trans hu
    exact hinv
  | illegal => exact h.raise .illegalCommand
  | register r v => exact h.writeReg r v
  | read value => exact { h with }
  | byte a b ha => exact h.writeBytes ha
  | reset => exact h.applyReset

end Sys2Proof.Machine

open Sys2Proof Sys2Proof.Machine Sys2Proof.Claims

/-- Settles O51: a step is idle or serves one access, and each access keeps the invariant. -/
theorem everyStepKeepsInvariant : Obligations.EveryStepKeepsInvariant := by
  intro s t h hstep
  rcases step_served hstep with ⟨-, rfl⟩ | ⟨access, rest, -, hserved⟩
  · exact h
  · exact hserved.inv (h.withPending rest)

end

section
/-! PROOFS. The MAC engine (spec/43_poly1305.md): the integers of byte sequences as sums, the fold of a message block by
block, and each MAC command by its error code. -/

namespace Sys2Proof.Machine

open Sys2Proof.Claims

/-! ### Byte sequences by index -/

/-- The first byte is the lowest (00_scope R10). -/
theorem leNat_succ (f : Nat → Byte) (n : Nat) :
    leNat f (n + 1) = (f 0).toNat + 256 * leNat (fun i => f (i + 1)) n := by
  rw [leNat, Finset.sum_range_succ', leNat, Finset.mul_sum, Nat.add_comm, pow_zero, Nat.mul_one]
  exact congrArg _ (Finset.sum_congr rfl fun i _ => by ring)

/-- The integer of a sequence given by index (00_scope R10). -/
theorem leInt_map_range (f : Nat → Byte) (n : Nat) : leInt ((List.range n).map f) = leNat f n := by
  induction n generalizing f with
  | zero => rfl
  | succ n ih =>
    rw [List.range_succ_eq_map, List.map_cons, List.map_map, leInt, leNat_succ]
    exact congrArg (fun k => (f 0).toNat + 256 * k) (ih _)

/-- A piece of a sequence given by index. -/
theorem take_drop_map_range (f : Nat → Byte) (L k n : Nat) :
    (((List.range L).map f).drop k).take n = (List.range (min n (L - k))).map fun i => f (k + i) := by
  apply List.ext_getElem
  · simp only [List.length_take, List.length_drop, List.length_map, List.length_range]
  · intro i _ _
    simp only [List.getElem_take, List.getElem_drop, List.getElem_map, List.getElem_range]

/-- The value of a block given by index (43_poly1305 R166). -/
theorem blockval_map_range (f : Nat → Byte) {n : Nat} (hn : n ≤ 16) :
    blockval ((List.range n).map f) = blockNumber f n := by
  rcases hn.lt_or_eq with hlt | rfl
  · rw [blockval_short _ (by simpa using hlt), leInt_map_range, List.length_map, List.length_range, pow_256,
      blockNumber, if_pos hlt]
  · rw [blockval_full _ (by simp), leInt_map_range, blockNumber, if_neg (by decide), Nat.add_zero]

/-- The fold of a message given by index (43_poly1305 R165, R168). -/
theorem foldMessage_map_range (r acc : Nat) (f : Nat → Byte) (L : Nat) :
    foldMessage r acc ((List.range L).map f) = accAfter r acc f L ((L + 15) / 16) := by
  rw [foldMessage, pieces, List.length_map, List.length_range]
  induction (L + 15) / 16 with
  | zero => rfl
  | succ k ih =>
    rw [List.range_succ, List.map_append, List.foldl_append, ih, List.map_singleton, List.foldl_cons, List.foldl_nil,
      take_drop_map_range, fold, blockval_map_range _ (Nat.min_le_left _ _), accAfter]
    rfl

/-- The finalised accumulator of MAC_TAG (43_poly1305 R169, R177). -/
theorem State.finalised_eq (s : State) :
    s.finalised = finalAcc s.R.toNat s.ACC.toNat s.S.toNat (inByte s) s.IN_LEN.toNat :=
  congrArg (final · s.S.toNat) (foldMessage_map_range s.R.toNat s.ACC.toNat (inByte s) s.IN_LEN.toNat)

/-! ### The tag bytes -/

/-- A byte of the tag is a byte of its low 128 bits (43_poly1305 R170). -/
theorem tagByte_mod (a : Nat) {i : Nat} (hi : i < 16) : tagByte (a % 2 ^ 128) i = tagByte a i := by
  have hsplit : 2 ^ 128 = 256 ^ i * (2 ^ 8 * 256 ^ (15 - i)) := by
    calc 2 ^ 128 = 256 ^ (i + 1 + (15 - i)) := by rw [show i + 1 + (15 - i) = 16 by omega]; rfl
      _ = 256 ^ i * (2 ^ 8 * 256 ^ (15 - i)) := by rw [pow_add, pow_succ, Nat.mul_assoc]; rfl
  rw [tagByte, hsplit, Nat.mod_mul_right_div_self]
  exact BitVec.eq_of_toNat_eq (Nat.mod_mod_of_dvd _ (Nat.dvd_mul_right _ _))

/-- Every byte of MEM after a MemWrite of tag bytes (43_poly1305 R170, R177). -/
theorem readByte_writeBytes_tagBytes (s : State) (addr a x : Nat) :
    (s.writeBytes addr (tagBytes a)).readByte x =
      if inside addr 16 x then tagByte a (x - addr) else s.readByte x := by
  rw [State.readByte_writeBytes]
  simp only [tagBytes_length]
  by_cases hx : inside addr 16 x
  · rw [dif_pos hx, if_pos hx, ← tagByte_mod a (by omega)]
    exact bytesLE_getElem 16 _ _ _
  · rw [dif_neg hx, if_neg hx]

/-! ### The MAC commands by their error codes -/

/-- MAC_KEY's error code is that of its checks (43_poly1305 R173). -/
theorem failureCode_macKeyFailure (s : State) : failureCode (macKeyFailure s) = macKeyErr s := by
  rw [macKeyFailure, failureCode_cons (s.keyLenCheck_pass.trans not_not.symm),
    failureCode_rangeCheck s (p := fits s s.KEY_ADDR 32) (by simp)]
  rfl

/-- MAC_BLOCK's error code is that of its checks (43_poly1305 R175). -/
theorem failureCode_macBlockFailure (s : State) : failureCode (macBlockFailure s) = macBlockErr s := by
  rw [macBlockFailure,
    failureCode_cons (p := s.IN_LEN.toNat = 0 ∨ 16 < s.IN_LEN.toNat) (s.blockLenCheck_pass.trans (by omega)),
    failureCode_rangeCheck s (p := fits s s.IN_ADDR s.IN_LEN.toNat) (by simp)]
  rfl

/-- MAC_TAG's error code is that of its check (43_poly1305 R177). -/
theorem failureCode_macTagFailure (s : State) : failureCode (macTagFailure s) = macTagErr s :=
  failureCode_rangeCheck s (p := fits s s.IN_ADDR s.IN_LEN.toNat ∧ fits s s.TAG_ADDR 16) (by simp)

/-- MAC_KEY with an error (43_poly1305 R173). -/
theorem exec_macKey_failed {s : State} (h : macKeyErr s ≠ 0#4) :
    exec .macKey s = .next (failed s (macKeyErr s)) := by
  rw [← failureCode_macKeyFailure] at h ⊢
  rw [exec_macKey, State.command_of_failureCode_ne_zero h]

/-- MAC_BLOCK with an error (43_poly1305 R175). -/
theorem exec_macBlock_failed {s : State} (h : macBlockErr s ≠ 0#4) :
    exec .macBlock s = .next (failed s (macBlockErr s)) := by
  rw [← failureCode_macBlockFailure] at h ⊢
  rw [exec_macBlock, State.command_of_failureCode_ne_zero h]

/-- MAC_TAG with an error (43_poly1305 R177). -/
theorem exec_macTag_failed {s : State} (h : macTagErr s ≠ 0#4) :
    exec .macTag s = .next (failed s (macTagErr s)) := by
  rw [← failureCode_macTagFailure] at h ⊢
  rw [exec_macTag, State.command_of_failureCode_ne_zero h]

/-- Sixteen bytes of the key buffer. -/
theorem State.key_half (s : State) {k : Nat} (hk : k ≤ 16) :
    (s.key.drop k).take 16 = (List.range 16).map fun i => s.readByte (s.KEY_ADDR.toNat + k + i) := by
  have hbytes := take_drop_map_range (fun i => s.readByte (s.KEY_ADDR.toNat + i)) 32 k 16
  simp only [Nat.min_eq_left (show 16 ≤ 32 - k by omega), ← Nat.add_assoc] at hbytes
  exact hbytes

/-- The multiplier of the key buffer's first half (43_poly1305 R161). -/
theorem multiplierOf_key (s : State) : multiplierOf s.cfg.clampMask s.key = BitVec.ofNat 128 (keyR s) := by
  have hhalf : s.key.take 16 = _ := s.key_half (Nat.zero_le 16)
  rw [multiplierOf, hhalf, leInt_map_range, keyR, BitVec.ofNat_and, BitVec.ofNat_toNat, BitVec.setWidth_eq]
  rfl

/-- The secret of the key buffer's second half (43_poly1305 R162). -/
theorem secretOf_key (s : State) : secretOf s.key = BitVec.ofNat 128 (keyS s) := by
  rw [secretOf, s.key_half (Nat.le_refl 16), leInt_map_range, keyS]

/-- MAC_KEY without an error (43_poly1305 R173). -/
theorem exec_macKey_ok {s : State} (h : macKeyErr s = 0#4) :
    exec .macKey s = .next
      { s with R := BitVec.ofNat 128 (keyR s), S := BitVec.ofNat 128 (keyS s), ACC := 0#130,
               status := okStatus s } := by
  rw [exec_macKey, macKeyFailure_none h, State.command_none, multiplierOf_key, secretOf_key]
  rfl

/-- MAC_BLOCK without an error (43_poly1305 R175). -/
theorem exec_macBlock_ok {s : State} (h : macBlockErr s = 0#4) :
    exec .macBlock s = .next (s.setAcc (fold s.R.toNat s.ACC.toNat s.input)).complete := by
  rw [← failureCode_macBlockFailure] at h
  rw [exec_macBlock, State.command_of_failureCode_eq_zero h]

/-- The value of MAC_BLOCK's block of at most 16 bytes (43_poly1305 R166, R175). -/
theorem blockval_input {s : State} (h : macBlockErr s = 0#4) :
    blockval s.input = blockNumber (inByte s) s.IN_LEN.toNat := by
  have hlen : s.IN_LEN.toNat ≤ 16 := by
    by_contra hlong
    rw [macBlockErr, if_pos (.inr (by omega))] at h
    cases h
  exact blockval_map_range (inByte s) hlen

/-- When MAC_BLOCK raises no error (43_poly1305 R175). -/
theorem macBlockErr_eq_zero {s : State} (hlen : 0 < s.IN_LEN.toNat ∧ s.IN_LEN.toNat ≤ 16)
    (hfits : fits s s.IN_ADDR s.IN_LEN.toNat) : macBlockErr s = 0#4 := by
  rw [macBlockErr, if_neg (by omega), if_pos hfits]

/-- `s` after a MAC_TAG without an error (43_poly1305 R177). -/
def State.tagged (s : State) : State :=
  { s with
    ACC := BitVec.ofNat 130 s.finalised
    TAG := BitVec.ofNat 128 s.finalised
    mem := s.mem.writeBytes s.TAG_ADDR.toNat (tagBytes s.finalised)
    status := okStatus s }

@[simp] theorem State.tagged_TAG (s : State) : s.tagged.TAG = BitVec.ofNat 128 s.finalised := (rfl)

/-- MAC_TAG without an error (43_poly1305 R177). -/
theorem exec_macTag_ok {s : State} (h : macTagErr s = 0#4) : exec .macTag s = .next s.tagged := by
  rw [exec_macTag, macTagFailure_none h, State.command_none, State.tagBuffer_addr, State.writeBytes,
    State.setAccTag_mem, State.complete, State.tagged]
  rfl

/-- Every byte of MEM after MAC_TAG (43_poly1305 R177). -/
theorem State.readByte_tagged (s : State) (x : Nat) : s.tagged.readByte x =
    if inside s.TAG_ADDR.toNat 16 x then tagByte s.finalised (x - s.TAG_ADDR.toNat) else s.readByte x := by
  have hmem : s.tagged.mem = (s.writeBytes s.TAG_ADDR.toNat (tagBytes s.finalised)).mem := by
    rw [tagged, writeBytes_mem]
  rw [readByte_congr _ _ hmem rfl, readByte_writeBytes_tagBytes]

/-! ### The MAC block by block (43_poly1305 R180) -/

/-- A state that lists the same bytes and has the same seed has the same buffers. -/
theorem State.readBuffer_congr (s t : State) (hm : t.mem = s.mem) (hs : t.memSeed = s.memSeed) (b : Buffer) :
    t.readBuffer b = s.readBuffer b :=
  List.map_congr_left fun _ _ => readByte_congr s t hm hs _

/-- `s` with IN_ADDR and IN_LEN set to a block. -/
def State.atBlock (s : State) (d : Word × Word) : State := { s with IN_ADDR := d.1, IN_LEN := d.2 }

/-- The bytes of a block. -/
def State.blockBytes (s : State) (d : Word × Word) : List Byte :=
  s.readBuffer { addr := d.1.toNat, len := d.2.toNat }

theorem State.input_atBlock (s : State) (d : Word × Word) : (s.atBlock d).input = s.blockBytes d :=
  readBuffer_congr s (s.atBlock d) rfl rfl _

/-- `s` after a MAC_BLOCK over a block. -/
def State.foldedBlock (s : State) (d : Word × Word) : State :=
  ((s.atBlock d).setAcc (fold s.R.toNat s.ACC.toNat (s.atBlock d).input)).complete

@[simp] theorem State.foldedBlock_R (s : State) (d : Word × Word) : (s.foldedBlock d).R = s.R := (rfl)
@[simp] theorem State.foldedBlock_S (s : State) (d : Word × Word) : (s.foldedBlock d).S = s.S := (rfl)
@[simp] theorem State.foldedBlock_mem (s : State) (d : Word × Word) : (s.foldedBlock d).mem = s.mem := (rfl)
@[simp] theorem State.foldedBlock_memSeed (s : State) (d : Word × Word) :
    (s.foldedBlock d).memSeed = s.memSeed := (rfl)

/-- The fold of a block is below P, so ACC holds it whole (43_poly1305 R171). -/
theorem State.foldedBlock_ACC_toNat (s : State) (d : Word × Word) :
    (s.foldedBlock d).ACC.toNat = fold s.R.toNat s.ACC.toNat (s.blockBytes d) := by
  rw [← input_atBlock]
  exact Nat.mod_eq_of_lt ((mulmod_lt _ _).trans P_lt)

/-- MAC_BLOCK leaves the bytes of every block. -/
@[simp] theorem State.blockBytes_foldedBlock (s : State) (d : Word × Word) :
    (s.foldedBlock d).blockBytes = s.blockBytes :=
  funext fun _ => readBuffer_congr s _ (foldedBlock_mem s d) (foldedBlock_memSeed s d) _

/-- The accumulator after a MAC_BLOCK over each of the blocks. -/
def State.foldBlocks (s : State) (ds : List (Word × Word)) : Nat :=
  (ds.map s.blockBytes).foldl (fold s.R.toNat) s.ACC.toNat

theorem State.foldBlocks_cons (s : State) (d : Word × Word) (ds : List (Word × Word)) :
    s.foldBlocks (d :: ds) = (s.foldedBlock d).foldBlocks ds := by
  simp only [foldBlocks, List.map_cons, List.foldl_cons, blockBytes_foldedBlock, foldedBlock_R, foldedBlock_ACC_toNat]

/-- A MAC_BLOCK over each block and then MAC_FINAL, none of which raises an error. -/
theorem macBlockwise_ok (ds : List (Word × Word)) (s : State) (h : ∀ d ∈ ds, macBlockErr (s.atBlock d) = 0#4) :
    ∃ t, macBlockwise ds s = .next t ∧ t.ACC = BitVec.ofNat 130 (final (s.foldBlocks ds) s.S.toNat) ∧
      t.TAG = BitVec.ofNat 128 (final (s.foldBlocks ds) s.S.toNat) ∧ t.status.err = 0#4 ∧ t.mem = s.mem := by
  induction ds generalizing s with
  | nil => exact ⟨_, exec_macFinal s, rfl, rfl, rfl, rfl⟩
  | cons d ds ih =>
    obtain ⟨hd, hds⟩ := List.forall_mem_cons.1 h
    have hrun : macBlockwise (d :: ds) s = macBlockwise ds (s.foldedBlock d) :=
      congrArg (andThen · (macBlockwise ds)) (exec_macBlock_ok hd)
    have hrest := ih (s.foldedBlock d) hds
    rwa [← hrun, ← s.foldBlocks_cons, s.foldedBlock_S, s.foldedBlock_mem] at hrest

/-- The k-th block's descriptor does not wrap (43_poly1305 R165). -/
theorem blockDescriptor_toNat {a l : Word} {k : Nat} (hk : 16 * k < l.toNat) (hfits : a.toNat + l.toNat ≤ 2 ^ 32) :
    (a + BitVec.ofNat 32 (16 * k)).toNat = a.toNat + 16 * k ∧
      (BitVec.ofNat 32 (min 16 (l.toNat - 16 * k))).toNat = min 16 (l.toNat - 16 * k) := by
  rw [BitVec.toNat_add, BitVec.toNat_ofNat, BitVec.toNat_ofNat]
  omega

section
variable {s : State} (hfits : fits s s.IN_ADDR s.IN_LEN.toNat) (hsize : s.cfg.memSize ≤ 2 ^ 32)
include hfits hsize

/-- MAC_BLOCK raises no error on any block of a message in range. -/
theorem macBlockErr_blockDescriptors :
    ∀ d ∈ blockDescriptors s.IN_ADDR s.IN_LEN, macBlockErr (s.atBlock d) = 0#4 := by
  intro d hd
  obtain ⟨k, hk, rfl⟩ := List.mem_map.1 hd
  rw [List.mem_range] at hk
  obtain ⟨haddr, hlen⟩ := blockDescriptor_toNat (a := s.IN_ADDR) (l := s.IN_LEN) (k := k) (by omega)
    (hfits.trans hsize)
  refine macBlockErr_eq_zero ?_ ?_
  · simp only [State.atBlock, hlen]; omega
  · simp only [State.atBlock, fits, haddr, hlen]; omega

/-- The blocks of the descriptors are the pieces of the message (43_poly1305 R165). -/
theorem map_blockBytes_blockDescriptors :
    (blockDescriptors s.IN_ADDR s.IN_LEN).map s.blockBytes = pieces 16 s.input := by
  rw [blockDescriptors, pieces, State.input_length, List.map_map]
  refine List.map_congr_left fun k hk => ?_
  rw [List.mem_range] at hk
  obtain ⟨haddr, hlen⟩ := blockDescriptor_toNat (a := s.IN_ADDR) (l := s.IN_LEN) (k := k) (by omega)
    (hfits.trans hsize)
  calc s.blockBytes _
      = (List.range (min 16 (s.IN_LEN.toNat - 16 * k))).map fun i => inByte s (16 * k + i) := by
        simp only [State.blockBytes, State.readBuffer, inByte, haddr, hlen, Nat.add_assoc]
    _ = (s.input.drop (16 * k)).take 16 := (take_drop_map_range (inByte s) s.IN_LEN.toNat (16 * k) 16).symm

/-- The folds of the blocks are the fold of the message (43_poly1305 R180). -/
theorem foldBlocks_blockDescriptors :
    s.foldBlocks (blockDescriptors s.IN_ADDR s.IN_LEN) = foldMessage s.R.toNat s.ACC.toNat s.input := by
  rw [State.foldBlocks, map_blockBytes_blockDescriptors hfits hsize, foldMessage]

end

/-! ### Messages that leave the accumulator at 0 (43_poly1305 R179) -/

/-- Whole blocks of zeros keep an accumulator of 0: they have no marker (43_poly1305 R166, R179). -/
theorem accAfter_zero_blocks (r : Nat) {f : Nat → Byte} {L : Nat} (hf : ∀ j, j < L → f j = 0#8) {k : Nat}
    (hk : 16 * k ≤ L) : accAfter r 0 f L k = 0 := by
  induction k with
  | zero => rfl
  | succ k ih =>
    have hblock : leNat (fun i => f (16 * k + i)) 16 = 0 :=
      Finset.sum_eq_zero fun i hi => by
        have hbyte : f (16 * k + i) = 0#8 := hf _ (by have := Finset.mem_range.1 hi; omega)
        simp only [hbyte, BitVec.toNat_zero, Nat.zero_mul]
    rw [accAfter, ih (by omega), Nat.min_eq_left (by omega), blockNumber, hblock, if_neg (by decide), Nat.mul_zero]
    rfl

/-- The finalised accumulator of such a message is the secret, which is below P (43_poly1305 R169, R179). -/
theorem finalAcc_zero_blocks (r : Nat) (sec : BitVec 128) {f : Nat → Byte} {L : Nat} (hL : L % 16 = 0)
    (hf : ∀ j, j < L → f j = 0#8) : finalAcc r 0 sec.toNat f L = sec.toNat := by
  have hsec := sec.isLt
  rw [finalAcc, accAfter_zero_blocks r hf (by omega), Nat.zero_add, Nat.mod_eq_of_lt (by omega)]

end Sys2Proof.Machine

open Sys2Proof Sys2Proof.Machine Sys2Proof.Claims

/-- Settles O37: MAC_KEY by its error code. -/
theorem macKeyLoadsKey : Obligations.MacKeyLoadsKey := fun _ => ⟨rfl, exec_macKey_failed, exec_macKey_ok⟩

/-- Settles O39: MAC_BLOCK by its error code, and the block's value by index. -/
theorem macBlockFoldsOneBlock : Obligations.MacBlockFoldsOneBlock := by
  refine fun s => ⟨rfl, exec_macBlock_failed, fun h => ?_⟩
  rw [exec_macBlock_ok h, fold, blockval_input h]
  rfl

/-- Settles O41: MAC_TAG by its error code, the finalised accumulator by index, and MEM byte by byte. -/
theorem macTagFoldsWholeMessage : Obligations.MacTagFoldsWholeMessage := fun s =>
  ⟨rfl, exec_macTag_failed, fun h => ⟨s.finalised, _, s.finalised_eq, exec_macTag_ok h,
    readByte_writeBytes_tagBytes s s.TAG_ADDR.toNat s.finalised⟩⟩

/-- Settles O42: both ways finalise the fold of the same blocks. -/
theorem blockwiseMacEqualsMacTag : Obligations.BlockwiseMacEqualsMacTag := by
  intro s hcfg h
  have hsize : s.cfg.memSize ≤ 2 ^ 32 := by
    simp only [Config.wf, Bool.and_eq_true, decide_eq_true_eq] at hcfg
    obtain ⟨⟨-, hmax⟩, -⟩ := hcfg
    exact hmax
  have hfits : fits s s.IN_ADDR s.IN_LEN.toNat := by
    by_contra hout
    rw [macTagErr, if_neg fun hboth => hout hboth.1] at h
    cases h
  obtain ⟨t, hrun, hACC, hTAG, herr, hmem⟩ := macBlockwise_ok _ s (macBlockErr_blockDescriptors hfits hsize)
  rw [foldBlocks_blockDescriptors hfits hsize] at hACC hTAG
  refine ⟨t, s.tagged, hrun, exec_macTag_ok h, hACC, hTAG, herr, rfl, hmem, fun x => ?_⟩
  rw [s.readByte_tagged, s.tagged_TAG, BitVec.toNat_ofNat]
  by_cases hx : inside s.TAG_ADDR.toNat 16 x
  · rw [if_pos hx, if_pos hx, tagByte_mod _ (by omega)]
  · rw [if_neg hx, if_neg hx]

/-- Settles O43: the finalised accumulator of such a message is S. -/
theorem emptyAndZeroMessagesTagAsSecret : Obligations.EmptyAndZeroMessagesTagAsSecret := by
  intro s h hacc hlen hzero
  have hfinal : s.finalised = s.S.toNat := by
    rw [s.finalised_eq, hacc]
    exact finalAcc_zero_blocks s.R.toNat s.S hlen hzero
  refine ⟨_, exec_macTag_ok h, ?_, fun i hi => ?_⟩
  · rw [s.tagged_TAG, hfinal, BitVec.ofNat_toNat, BitVec.setWidth_eq]
  · rw [s.readByte_tagged, if_pos (by omega), Nat.add_sub_cancel_left, hfinal]

/-- Settles O38: MAC_CLEAR makes no check. -/
theorem macClearZeroesAccumulator : Obligations.MacClearZeroesAccumulator := fun s => ⟨rfl, exec_macClear s⟩

/-- Settles O40: MAC_FINAL makes no check. -/
theorem macFinalAddsSecret : Obligations.MacFinalAddsSecret := fun s => ⟨rfl, exec_macFinal s⟩

/-- Settles O44: from ACC = 0 and S = 1 the first tag of the empty message is 1 and leaves ACC = 1, so the
second is 2. -/
theorem secondTagCanDiffer : Obligations.SecondTagCanDiffer :=
  ⟨{ State.reset with S := 1#128 }, _, _, rfl, rfl, by decide, by decide, rfl, by decide⟩

end

section
/-! PROOFS. The AEAD orchestrator (spec/44_aead.md): how SEAL and OPEN end by the code of their error, the fresh tag by
index, what SEAL and OPEN do where no check fails, and that OPEN undoes SEAL. -/

namespace Sys2Proof.Machine

open Sys2Proof.Claims

/-! ### The fresh tag by index -/

/-- `le_int` of n bytes is below 256^n. -/
theorem leNat_lt (f : Nat → Byte) (n : Nat) : leNat f n < 256 ^ n := by
  have h := leInt_lt ((List.range n).map f)
  rwa [leInt_map_range, List.length_map, List.length_range] at h

/-- The multiplier is the clamped number itself: the mask has 128 bits (43_poly1305 R161). -/
theorem multiplierOf_key_toNat (s : State) : (multiplierOf s.cfg.clampMask s.key).toNat = keyR s := by
  rw [multiplierOf_key, BitVec.toNat_ofNat]
  exact Nat.mod_eq_of_lt (Nat.and_lt_two_pow _ s.cfg.clampMask.isLt)

/-- The secret is the number of the key's last 16 bytes itself (43_poly1305 R162). -/
theorem secretOf_key_toNat (s : State) : (secretOf s.key).toNat = keyS s := by
  rw [secretOf_key, BitVec.toNat_ofNat]
  exact Nat.mod_eq_of_lt (leNat_lt _ 16)

/-- `mac_fresh` of a message given by index (44_aead R191). -/
theorem macFresh_map_range (s : State) (f : Nat → Byte) (L : Nat) :
    macFresh s.cfg.clampMask s.key ((List.range L).map f) = tagBytes (freshAcc s f L) := by
  rw [macFresh, foldMessage_map_range, multiplierOf_key_toNat, secretOf_key_toNat]
  rfl

/-- The tag bytes by index (43_poly1305 R170). -/
theorem tagBytes_eq_map_range (a : Nat) : tagBytes a = (List.range 16).map (tagByte a) := by
  apply List.ext_getElem (by simp)
  intro i hi _
  rw [tagBytes_length] at hi
  rw [List.getElem_map, List.getElem_range, ← tagByte_mod a hi]
  exact bytesLE_getElem 16 _ _ _

/-- OPEN's comparison passes exactly where the recomputed tag is the supplied one (44_aead R195). -/
theorem State.tagMatchCheck_pass (s : State) :
    s.tagMatchCheck.1 = false ↔ macFresh s.cfg.clampMask s.key s.input = s.suppliedTag := by
  rw [tagMatchCheck, tagMismatch, bne_eq_false_iff_eq]

/-- The two tags are equal exactly where all 16 bytes agree (44_aead R195). -/
theorem State.macFresh_eq_suppliedTag_iff (s : State) :
    macFresh s.cfg.clampMask s.key s.input = s.suppliedTag ↔ tagMatches s := by
  have hfresh : macFresh s.cfg.clampMask s.key s.input =
      (List.range 16).map (tagByte (freshAcc s (inByte s) s.IN_LEN.toNat)) :=
    (macFresh_map_range s (inByte s) s.IN_LEN.toNat).trans (tagBytes_eq_map_range _)
  have hsupplied : s.suppliedTag = (List.range 16).map fun i => s.readByte (s.TAG_ADDR.toNat + i) := rfl
  rw [hfresh, hsupplied, List.map_inj_left]
  simp only [List.mem_range]
  exact forall₂_congr fun _ _ => eq_comm

/-- What SEAL computes from the input buffer, and OPEN too, by index (44_aead R193, R194). -/
theorem State.sealed_eq_map_range (s : State) : s.sealed = (List.range s.IN_LEN.toNat).map (aeadByte s) := by
  rw [sealed, aeadCipher, xorStream_eq_mapIdx]
  apply List.ext_getElem (by simp)
  intro j _ _
  rw [List.getElem_mapIdx, input_getElem, keystreamByte_eq_streamByte, List.getElem_map, List.getElem_range]
  rfl

/-- SEAL's tag, by its accumulator (44_aead R193). -/
theorem State.macFresh_sealed (s : State) :
    macFresh s.cfg.clampMask s.key s.sealed = tagBytes (freshAcc s (aeadByte s) s.IN_LEN.toNat) := by
  rw [sealed_eq_map_range, macFresh_map_range]

/-! ### The end of SEAL and OPEN by the code of the error -/

/-- SEAL's error code is that of its checks (44_aead R193). -/
theorem failureCode_sealFailure (s : State) : failureCode (sealFailure s) = sealErr s := by
  rw [sealFailure, failureCode_cons (s.keyLenCheck_pass.trans not_not.symm),
    failureCode_cons (s.nonceLenCheck_pass.trans not_not.symm),
    failureCode_rangeCheck s (p := aeadFits s) (by simp [State.aeadBuffers])]
  rfl

/-- OPEN's error code is that of its checks, the comparison of the tags the last (44_aead R194, R195). -/
theorem failureCode_openFailure (s : State) : failureCode (openFailure s) = openErr s := by
  have hrange : (s.rangeCheck s.aeadBuffers).1 = false ↔ ¬¬aeadFits s := by
    rw [State.rangeCheck_pass, not_not]
    simp [State.aeadBuffers]
  have hmatch : s.tagMatchCheck.1 = false ↔ ¬¬tagMatches s := by
    rw [s.tagMatchCheck_pass, s.macFresh_eq_suppliedTag_iff, not_not]
  rw [openFailure, failureCode_cons (s.keyLenCheck_pass.trans not_not.symm),
    failureCode_cons (s.nonceLenCheck_pass.trans not_not.symm),
    failureCode_cons (s.tagLenCheck_pass.trans not_not.symm), failureCode_cons hrange,
    failureCode_cons hmatch, ite_not (p := tagMatches s)]
  rfl

/-- SEAL never raises AuthenticationFailure (44_aead R193). -/
theorem sealErr_ne_four (s : State) : sealErr s ≠ 4#4 := by
  rw [sealErr]
  split_ifs <;> decide

/-- The phase an error ends in, by its code (44_aead R197). -/
theorem ErrorKind.phase_code (e : ErrorKind) : e.phase.code = if e.code = 4#4 then 2#3 else 1#3 := by
  cases e <;> rfl

/-- The phase SEAL or OPEN ends in, by the code of the error (44_aead R197). -/
theorem State.aeadCommand_phase (s effect : State) (failure : Option ErrorKind) :
    (s.aeadCommand failure effect).status.phase =
      if failureCode failure = 0#4 then 4#3 else if failureCode failure = 4#4 then 2#3 else 1#3 := by
  cases failure with
  | none => rfl
  | some e =>
    rw [failureCode, if_neg e.code_ne_zero, ← e.phase_code]
    rfl

/-- A SEAL or OPEN whose checks found an error changes STATUS only (60_exceptions R220, 44_aead R197). -/
theorem State.aeadCommand_of_failureCode_ne_zero {s effect : State} {failure : Option ErrorKind}
    (h : failureCode failure ≠ 0#4) :
    s.aeadCommand failure effect =
      aeadFailed s (failureCode failure) (if failureCode failure = 4#4 then 2#3 else 1#3) := by
  cases failure with
  | none => exact absurd rfl h
  | some e =>
    rw [failureCode, ← e.phase_code]
    rfl

/-- A SEAL or OPEN whose checks found no error performs its effect and ends in DONE (44_aead R197). -/
theorem State.aeadCommand_of_failureCode_eq_zero {s effect : State} {failure : Option ErrorKind}
    (h : failureCode failure = 0#4) : s.aeadCommand failure effect = effect.complete.setPhase .DONE := by
  rw [failureCode_eq_zero_iff.1 h, State.aeadCommand_none]

/-- A command but SEAL and OPEN leaves PHASE (44_aead R197). -/
theorem State.command_phase {s effect : State} (h : effect.status = s.status) (failure : Option ErrorKind) :
    (s.command failure effect).status.phase = s.status.phase := by
  cases failure with
  | none => simp [h]
  | some e => rfl

/-- Every command but SEAL and OPEN ends by `State.command`, with an effect that leaves STATUS. -/
theorem exec_eq_command {i : Instr} (h : ¬isAead i) (s : State) :
    ∃ failure effect, exec i s = .next (s.command failure effect) ∧ effect.status = s.status := by
  cases i with
  | aeadSeal => exact absurd (.inl rfl) h
  | aeadOpen => exact absurd (.inr rfl) h
  | _ => exact ⟨_, _, rfl, rfl⟩

/-! ### SEAL and OPEN by their error codes -/

/-- SEAL with an error (44_aead R193). -/
theorem exec_aeadSeal_failed {s : State} (h : sealErr s ≠ 0#4) :
    exec .aeadSeal s = .next (aeadFailed s (sealErr s) 1#3) := by
  have hphase := sealErr_ne_four s
  rw [← failureCode_sealFailure] at h hphase ⊢
  rw [exec_aeadSeal, State.aeadCommand_of_failureCode_ne_zero h, if_neg hphase]

/-- OPEN with an error (44_aead R194, R195). -/
theorem exec_aeadOpen_failed {s : State} (h : openErr s ≠ 0#4) :
    exec .aeadOpen s = .next (aeadFailed s (openErr s) (if openErr s = 4#4 then 2#3 else 1#3)) := by
  rw [← failureCode_openFailure] at h ⊢
  rw [exec_aeadOpen, State.aeadCommand_of_failureCode_ne_zero h]

/-- MEM after a SEAL without an error: its output and then its tag written (44_aead R193, 20_memory R73). -/
def State.sealedMem (s : State) : Memory :=
  (s.writeBytes s.OUT_ADDR.toNat s.sealed).mem.writeBytes s.TAG_ADDR.toNat (macFresh s.cfg.clampMask s.key s.sealed)

/-- Two MemWrites and the end of SEAL, whatever bytes are written. -/
theorem State.done_writeBytes_writeBytes (s : State) (a b : Nat) (bs cs : List Byte) :
    ((s.writeBytes a bs).writeBytes b cs).complete.setPhase .DONE =
      { s with mem := (s.writeBytes a bs).mem.writeBytes b cs, status := doneStatus s } := rfl

/-- SEAL without an error (44_aead R193). -/
theorem exec_aeadSeal_ok {s : State} (h : sealErr s = 0#4) :
    exec .aeadSeal s = .next { s with mem := s.sealedMem, status := doneStatus s } := by
  rw [← failureCode_sealFailure] at h
  rw [exec_aeadSeal, State.aeadCommand_of_failureCode_eq_zero h, State.done_writeBytes_writeBytes,
    State.outBuffer_addr, State.tagBuffer_addr, State.sealedMem]

/-- OPEN without an error writes what SEAL computes from the same input: the cipher is the same (44_aead R194). -/
theorem exec_aeadOpen_ok {s : State} (h : openErr s = 0#4) :
    exec .aeadOpen s = .next ((s.writeBytes s.OUT_ADDR.toNat s.sealed).complete.setPhase .DONE) := by
  rw [← failureCode_openFailure] at h
  rw [exec_aeadOpen, State.aeadCommand_of_failureCode_eq_zero h]
  rfl

/-- Every byte of MEM after the output is written (44_aead R193, R194). -/
theorem State.readByte_writeBytes_sealed (s : State) (a : Nat) :
    (s.writeBytes s.OUT_ADDR.toNat s.sealed).readByte a =
      if inside s.OUT_ADDR.toNat s.IN_LEN.toNat a then aeadByte s (a - s.OUT_ADDR.toNat) else s.readByte a :=
  readByte_writeBytes_xorStream s s.OUT_ADDR.toNat 0#32 AEAD_ROUNDS a

/-- What MEM reads as once a second MemWrite follows a first. -/
theorem readWith_writeBytes (s : State) (a b x : Nat) (bs cs : List Byte) :
    readWith s ((s.writeBytes a bs).mem.writeBytes b cs) x = ((s.writeBytes a bs).writeBytes b cs).readByte x := rfl

/-- Every byte of MEM after SEAL, the tag over the output (44_aead R193). -/
theorem readWith_sealedMem (s : State) (a : Nat) :
    readWith s s.sealedMem a =
      if inside s.TAG_ADDR.toNat 16 a then
        tagByte (freshAcc s (aeadByte s) s.IN_LEN.toNat) (a - s.TAG_ADDR.toNat)
      else if inside s.OUT_ADDR.toNat s.IN_LEN.toNat a then aeadByte s (a - s.OUT_ADDR.toNat)
      else s.readByte a := by
  rw [State.sealedMem, readWith_writeBytes, s.macFresh_sealed, readByte_writeBytes_tagBytes,
    s.readByte_writeBytes_sealed]

/-! ### OPEN of what SEAL left (44_aead R198) -/

/-- Two buffers of the same bytes read the same. -/
theorem State.readBuffer_eq_of_readByte_eq {s t : State} {b c : Buffer} (hlen : b.len = c.len)
    (h : ∀ i, i < c.len → s.readByte (b.addr + i) = t.readByte (c.addr + i)) :
    s.readBuffer b = t.readBuffer c := by
  rw [readBuffer, readBuffer, hlen]
  exact List.map_congr_left fun i hi => h i (List.mem_range.1 hi)

/-- A tag buffer with the bytes that SEAL left in its own holds SEAL's tag (44_aead R193, R198). -/
theorem State.suppliedTag_eq_macFresh_sealed {s u : State}
    (htag : ∀ i, i < 16 → u.readByte (u.TAG_ADDR.toNat + i) = readWith s s.sealedMem (s.TAG_ADDR.toNat + i)) :
    u.suppliedTag = macFresh s.cfg.clampMask s.key s.sealed := by
  rw [macFresh_sealed, tagBytes_eq_map_range]
  refine List.map_congr_left fun i hi => ?_
  have hlt : i < 16 := List.mem_range.1 hi
  rw [u.tagBuffer_addr, htag i hlt, readWith_sealedMem, if_pos (by omega), Nat.add_sub_cancel_left]

/-- The bytes of what SEAL computes, by index (44_aead R193). -/
theorem State.sealed_getElem? (s : State) {j : Nat} (hj : j < s.IN_LEN.toNat) : s.sealed[j]? = some (aeadByte s j) := by
  rw [sealed_eq_map_range, List.getElem?_map, List.getElem?_range hj, Option.map_some]

/-- The ciphertext at OPEN is SEAL's, if it is what SEAL left in its output buffer but where the tag lies over it
(44_aead R198, 20_memory R73). -/
theorem State.input_eq_sealed {s u : State} (hlen : u.IN_LEN = s.IN_LEN)
    (hin : ∀ j, j < s.IN_LEN.toNat → some (inByte u j) =
      if inside s.TAG_ADDR.toNat 16 (s.OUT_ADDR.toNat + j) then s.sealed[j]?
      else some (readWith s s.sealedMem (s.OUT_ADDR.toNat + j))) :
    u.input = s.sealed := by
  have hbyte : ∀ j, j < s.IN_LEN.toNat → inByte u j = aeadByte s j := by
    intro j hj
    have h := hin j hj
    by_cases htag : inside s.TAG_ADDR.toNat 16 (s.OUT_ADDR.toNat + j)
    · rw [if_pos htag, s.sealed_getElem? hj] at h
      exact Option.some.inj h
    · rw [if_neg htag, readWith_sealedMem, if_neg htag, if_pos (by omega), Nat.add_sub_cancel_left] at h
      exact Option.some.inj h
  have hinput : u.input = (List.range u.IN_LEN.toNat).map (inByte u) := rfl
  rw [hinput, sealed_eq_map_range, hlen]
  exact List.map_congr_left fun j hj => hbyte j (List.mem_range.1 hj)

/-- OPEN raises nothing where the lengths and the ranges pass and the supplied tag is the fresh one (44_aead R194). -/
theorem openErr_eq_zero {s : State} (hkey : s.KEY_LEN = 32#32) (hnonce : s.NONCE_LEN = 12#32)
    (htagLen : s.TAG_LEN = 16#32) (hfits : aeadFits s)
    (htag : macFresh s.cfg.clampMask s.key s.input = s.suppliedTag) : openErr s = 0#4 := by
  have hmatches : tagMatches s := s.macFresh_eq_suppliedTag_iff.1 htag
  rw [openErr, if_neg (not_not.2 hkey), if_neg (not_not.2 hnonce), if_neg (not_not.2 htagLen),
    if_neg (not_not.2 hfits), if_pos hmatches]

/-- What SEAL and OPEN compute from a ciphertext under the same key and nonce is the plaintext (44_aead R198). -/
theorem State.sealed_eq_input {s u : State} (hkey : u.key = s.key) (hnonce : u.nonce = s.nonce)
    (hinput : u.input = s.sealed) : u.sealed = s.input := by
  rw [sealed, hkey, hnonce, hinput]
  exact (streamIsSelfInverse s.key s.nonce 0#32 AEAD_ROUNDS s.input).1

/-! ### The registers SEAL and OPEN do not use (44_aead R196) -/

/-- `s` with the values of `d` in the registers that SEAL and OPEN neither read nor write (44_aead R196). -/
def State.withDatapathOf (s d : State) : State :=
  { s with
    W := d.W, X := d.X, KS := d.KS, R := d.R, S := d.S, ACC := d.ACC, TAG := d.TAG
    ROUNDS := d.ROUNDS, BASE_CTR := d.BASE_CTR, BLK_IDX := d.BLK_IDX }

namespace State

variable (s d : State)

@[simp] theorem withDatapathOf_cfg : (s.withDatapathOf d).cfg = s.cfg := (rfl)
@[simp] theorem withDatapathOf_OUT_ADDR : (s.withDatapathOf d).OUT_ADDR = s.OUT_ADDR := (rfl)
@[simp] theorem withDatapathOf_TAG_ADDR : (s.withDatapathOf d).TAG_ADDR = s.TAG_ADDR := (rfl)
@[simp] theorem withDatapathOf_key : (s.withDatapathOf d).key = s.key := (rfl)
@[simp] theorem withDatapathOf_nonce : (s.withDatapathOf d).nonce = s.nonce := (rfl)
@[simp] theorem withDatapathOf_input : (s.withDatapathOf d).input = s.input := (rfl)

/-- The cipher reads the key, the nonce and the input alone: counter 0 and 20 rounds are its own. -/
@[simp] theorem withDatapathOf_sealed : (s.withDatapathOf d).sealed = s.sealed := (rfl)

/-- No check of SEAL's reads one of these registers. -/
@[simp] theorem withDatapathOf_sealFailure : sealFailure (s.withDatapathOf d) = sealFailure s := (rfl)

/-- No check of OPEN's does, the comparison of the tags among them. -/
@[simp] theorem withDatapathOf_openFailure : openFailure (s.withDatapathOf d) = openFailure s := (rfl)

@[simp] theorem withDatapathOf_writeBytes (a : Nat) (bs : List Byte) :
    (s.withDatapathOf d).writeBytes a bs = (s.writeBytes a bs).withDatapathOf d := (rfl)

/-- The end of SEAL or OPEN writes STATUS alone. -/
@[simp] theorem withDatapathOf_aeadCommand (failure : Option ErrorKind) (effect : State) :
    (s.withDatapathOf d).aeadCommand failure (effect.withDatapathOf d) =
      (s.aeadCommand failure effect).withDatapathOf d := by
  cases failure <;> rfl

end State

/-- SEAL and OPEN do the same with other values in these registers, and leave those (44_aead R196). -/
theorem exec_withDatapathOf {i : Instr} (h : isAead i) (s d : State) :
    ∃ t, exec i s = .next t ∧ exec i (s.withDatapathOf d) = .next (t.withDatapathOf d) := by
  rcases h with rfl | rfl
  · refine ⟨_, exec_aeadSeal s, ?_⟩
    rw [exec_aeadSeal]
    simp
  · refine ⟨_, exec_aeadOpen s, ?_⟩
    rw [exec_aeadOpen]
    simp

/-! ### MAC_KEY and then MAC_TAG (44_aead R191) -/

/-- `s` after a MAC_KEY without an error (43_poly1305 R173). -/
def State.macKeyed (s : State) : State :=
  { s with
    R := multiplierOf s.cfg.clampMask s.key, S := secretOf s.key, ACC := 0#130, status := s.status.completed }

@[simp] theorem State.macKeyed_TAG_ADDR (s : State) : s.macKeyed.TAG_ADDR = s.TAG_ADDR := (rfl)

theorem State.macKeyed_input (s : State) : s.macKeyed.input = s.input :=
  readBuffer_congr s s.macKeyed rfl rfl s.inBuffer

/-- From the key's r and s and a zero accumulator, MAC_TAG's tag is the fresh one (44_aead R191). -/
theorem State.tagBytes_finalised_macKeyed (s : State) :
    tagBytes s.macKeyed.finalised = macFresh s.cfg.clampMask s.key s.input := by
  rw [finalised, macKeyed_input, macFresh]
  rfl

/-- MAC_KEY and then MAC_TAG, neither with an error: MAC_KEY leaves what MAC_TAG checks. -/
theorem runCommands_macKey_macTag {s : State} (hkey : macKeyErr s = 0#4) (htag : macTagErr s = 0#4) :
    runCommands [.macKey, .macTag] s = .next s.macKeyed.tagged := by
  have hmacKey : exec .macKey s = .next s.macKeyed := by rw [exec_macKey, macKeyFailure_none hkey]; rfl
  have hmacTag : exec .macTag s.macKeyed = .next s.macKeyed.tagged := exec_macTag_ok htag
  rw [runCommands, hmacKey, andThen, runCommands, hmacTag]
  rfl

/-! ### A block of zeros (44_aead R199) -/

/-- A full block of zeros leaves an accumulator of 0: it has no marker (43_poly1305 R166). -/
theorem fold_zero_block (r : Nat) : fold r 0 (List.replicate 16 0#8) = 0 := by
  rw [fold, blockval_full _ List.length_replicate, leInt_replicate_zero]
  exact Nat.zero_mod P

/-- A block of zeros before a message leaves its fold from 0. -/
theorem foldMessage_zero_block (r : Nat) (m : List Byte) :
    foldMessage r 0 (List.replicate 16 0#8 ++ m) = foldMessage r 0 m := by
  rw [foldMessage_step _ _ _ (by simp), List.take_left' List.length_replicate, List.drop_left' List.length_replicate,
    fold_zero_block]

end Sys2Proof.Machine

open Sys2Proof Sys2Proof.Machine Sys2Proof.Claims

/-- Settles O23: SEAL and OPEN by the code of their error; no other command and no illegal word writes PHASE. -/
theorem phaseAtTheEndOfSealAndOpen : Obligations.PhaseAtTheEndOfSealAndOpen := by
  refine ⟨fun i s hi => ?aead, fun i s hi => ?other, fun s v rest hv => ⟨_, step_illegal s rest hv, rfl⟩⟩
  case aead =>
    rcases hi with rfl | rfl
    · exact ⟨_, exec_aeadSeal s, by rw [State.aeadCommand_phase, failureCode_sealFailure]; rfl⟩
    · exact ⟨_, exec_aeadOpen s, by rw [State.aeadCommand_phase, failureCode_openFailure]; rfl⟩
  case other =>
    obtain ⟨failure, effect, hexec, hstatus⟩ := exec_eq_command hi s
    exact ⟨_, hexec, State.command_phase hstatus failure⟩

/-- Settles O45: SEAL by its error code, and MEM after it byte by byte. -/
theorem sealEncryptsAndTags : Obligations.SealEncryptsAndTags := fun s =>
  ⟨rfl, exec_aeadSeal_failed, fun h => ⟨_, exec_aeadSeal_ok h, readWith_sealedMem s⟩⟩

/-- Settles O46: OPEN by its error code, and MEM after it byte by byte. -/
theorem openVerifiesThenDecrypts : Obligations.OpenVerifiesThenDecrypts := fun s =>
  ⟨rfl, exec_aeadOpen_failed, fun h => ⟨_, exec_aeadOpen_ok h, s.readByte_writeBytes_sealed⟩⟩

/-- Settles O47: key, nonce, ciphertext and tag at OPEN are SEAL's, so the comparison passes and the cipher undoes
itself. -/
theorem sealThenOpenRestoresPlaintext : Obligations.SealThenOpenRestoresPlaintext := by
  intro s t u hseal hsealErr hcfg hkeyLen hnonceLen htagLen hlen hfits hkeyBytes hnonceBytes hinBytes htagBytes
  have ht : t = { s with mem := s.sealedMem, status := doneStatus s } :=
    (Host.Outcome.next.inj ((exec_aeadSeal_ok hsealErr).symm.trans hseal)).symm
  have hread : t.readByte = readWith s s.sealedMem := by
    rw [ht]
    exact funext (State.readByte_congr _ _ rfl rfl)
  rw [hread] at hinBytes htagBytes
  have hkey : u.key = s.key := State.readBuffer_eq_of_readByte_eq rfl hkeyBytes
  have hnonce : u.nonce = s.nonce := State.readBuffer_eq_of_readByte_eq rfl hnonceBytes
  have hinput : u.input = s.sealed := State.input_eq_sealed hlen hinBytes
  have hsupplied : u.suppliedTag = _ := State.suppliedTag_eq_macFresh_sealed htagBytes
  have htag : macFresh u.cfg.clampMask u.key u.input = u.suppliedTag := by rw [hcfg, hkey, hinput, hsupplied]
  refine ⟨_, exec_aeadOpen_ok (openErr_eq_zero hkeyLen hnonceLen htagLen hfits htag), rfl, rfl, fun j hj => ?_⟩
  change (u.writeBytes u.OUT_ADDR.toNat u.sealed).readByte (u.OUT_ADDR.toNat + j) = inByte s j
  have hj' : j < s.input.length := by rwa [State.input_length]
  rw [State.sealed_eq_input hkey hnonce hinput, State.readByte_writeBytes, dif_pos (by omega), ← s.input_getElem hj']
  simp only [Nat.add_sub_cancel_left]

/-- Settles O48: the checks and the written bytes are those of the state with the other values. -/
theorem sealAndOpenUsePrivateEngines : Obligations.SealAndOpenUsePrivateEngines := by
  intro i s w x ks r sec tag acc n b k hi
  exact exec_withDatapathOf hi s
    { s with W := w, X := x, KS := ks, R := r, S := sec, ACC := acc, TAG := tag, ROUNDS := n, BASE_CTR := b,
             BLK_IDX := k }

/-- Settles O49: MAC_KEY leaves the key's r and s and ACC = 0, from which MAC_TAG finalises what `mac_fresh` does. -/
theorem freshTagIsKeyThenTag : Obligations.FreshTagIsKeyThenTag := by
  intro s hkey htag
  refine ⟨_, runCommands_macKey_macTag hkey htag, rfl, fun i hi => ?_⟩
  have hbyte : s.macKeyed.tagged.readByte (s.TAG_ADDR.toNat + i) = tagByte s.macKeyed.finalised i := by
    rw [State.readByte_tagged, State.macKeyed_TAG_ADDR, if_pos (by omega), Nat.add_sub_cancel_left]
  rw [hbyte, ← s.tagBytes_finalised_macKeyed, tagBytes_eq_map_range, List.getElem?_map, List.getElem?_range hi,
    Option.map_some]

/-- Settles O50: the first block leaves the accumulator at 0. -/
theorem zeroBlockPrefixKeepsTag : Obligations.ZeroBlockPrefixKeepsTag := by
  intro mask key c
  rw [macFresh, foldMessage_zero_block, macFresh]

end

section
/-! PROOFS. The rules of errors for all thirteen commands at once (spec/60_exceptions.md): the error a command ends with
is the one its checks find, and a command that raises one writes STATUS only. -/

namespace Sys2Proof.Machine

open Sys2Proof.Claims

/-! ### The end of a command by what its checks found -/

/-- Taking an error, by its code (60_exceptions R214). -/
theorem State.raise_eq_failed (s : State) (e : ErrorKind) : s.raise e = failed s e.code := rfl

/-- ERR after a command is the code of what its checks found, whatever its effect (60_exceptions R214). -/
theorem State.command_err (s effect : State) (failure : Option ErrorKind) :
    (s.command failure effect).status.err = failureCode failure := by
  cases failure with
  | none => rfl
  | some e => rfl

/-- ERR after SEAL or OPEN is the code of what its checks found, whatever its effect (60_exceptions R214). -/
theorem State.aeadCommand_err (s effect : State) (failure : Option ErrorKind) :
    (s.aeadCommand failure effect).status.err = failureCode failure := by
  cases failure with
  | none => rfl
  | some e => rfl

/-! ### Each command by the code of its first failed check -/

/-- Every command but SEAL and OPEN ends by `State.command` with the first failure of its list of checks
(60_exceptions R219). -/
theorem exec_command_errOf {i : Instr} (hi : ¬isAead i) (s : State) :
    ∃ failure effect, exec i s = .next (s.command failure effect) ∧ failureCode failure = errOf i s := by
  cases i with
  | qr a b c d => exact ⟨none, _, rfl, rfl⟩
  | dround => exact ⟨none, _, rfl, rfl⟩
  | binit => exact ⟨_, _, exec_binit s, failureCode_binitFailure s⟩
  | bfinal => exact ⟨none, _, rfl, rfl⟩
  | block => exact ⟨_, _, exec_block s, failureCode_blockFailure s⟩
  | stream => exact ⟨_, _, exec_stream s, failureCode_streamFailure s⟩
  | macKey => exact ⟨_, _, exec_macKey s, failureCode_macKeyFailure s⟩
  | macClear => exact ⟨none, _, rfl, rfl⟩
  | macBlock => exact ⟨_, _, exec_macBlock s, failureCode_macBlockFailure s⟩
  | macFinal => exact ⟨none, _, rfl, rfl⟩
  | macTag => exact ⟨_, _, exec_macTag s, failureCode_macTagFailure s⟩
  | aeadSeal => exact absurd (.inl rfl) hi
  | aeadOpen => exact absurd (.inr rfl) hi

/-- SEAL and OPEN end by `State.aeadCommand` with the first failure of their list of checks (60_exceptions R219). -/
theorem exec_aeadCommand_errOf {i : Instr} (hi : isAead i) (s : State) :
    ∃ failure effect, exec i s = .next (s.aeadCommand failure effect) ∧ failureCode failure = errOf i s := by
  rcases hi with rfl | rfl
  · exact ⟨_, _, exec_aeadSeal s, failureCode_sealFailure s⟩
  · exact ⟨_, _, exec_aeadOpen s, failureCode_openFailure s⟩

/-- Every command ends with ERR = `errOf` (60_exceptions R214, R219). -/
theorem exec_err (i : Instr) (s : State) : ∃ t, exec i s = .next t ∧ t.status.err = errOf i s := by
  by_cases hi : isAead i
  · obtain ⟨failure, effect, hexec, hcode⟩ := exec_aeadCommand_errOf hi s
    exact ⟨_, hexec, (s.aeadCommand_err effect failure).trans hcode⟩
  · obtain ⟨failure, effect, hexec, hcode⟩ := exec_command_errOf hi s
    exact ⟨_, hexec, (s.command_err effect failure).trans hcode⟩

/-- Every command but SEAL and OPEN, with an error (60_exceptions R220). -/
theorem exec_failed {i : Instr} {s : State} (hi : ¬isAead i) (h : errOf i s ≠ 0#4) :
    exec i s = .next (failed s (errOf i s)) := by
  obtain ⟨failure, effect, hexec, hcode⟩ := exec_command_errOf hi s
  rw [← hcode] at h ⊢
  rw [hexec, State.command_of_failureCode_ne_zero h]

/-- SEAL and OPEN with an error (60_exceptions R220, 44_aead R197). -/
theorem exec_aeadFailed {i : Instr} {s : State} (hi : isAead i) (h : errOf i s ≠ 0#4) :
    exec i s = .next (aeadFailed s (errOf i s) (if errOf i s = 4#4 then 2#3 else 1#3)) := by
  obtain ⟨failure, effect, hexec, hcode⟩ := exec_aeadCommand_errOf hi s
  rw [← hcode] at h ⊢
  rw [hexec, State.aeadCommand_of_failureCode_ne_zero h]

end Sys2Proof.Machine

open Sys2Proof Sys2Proof.Machine Sys2Proof.Claims

/-- Settles O6: an illegal word takes IllegalCommand, whose code is 6. -/
theorem illegalWordWritesOnlyStatus : Obligations.IllegalWordWritesOnlyStatus := by
  intro s v rest hv
  rw [step_illegal s rest hv, State.raise_eq_failed]
  rfl

/-- Settles O21: a command ends with the code of its first failed check, and an illegal word takes IllegalCommand. -/
theorem firstFailedCheckIsRaised : Obligations.FirstFailedCheckIsRaised :=
  ⟨exec_err, fun s _ rest hv => ⟨_, step_illegal s rest hv, rfl⟩⟩

/-- Settles O22: `failed` and `aeadFailed` write STATUS only, and `failed` leaves PHASE. -/
theorem failedCommandChangesOnlyStatus : Obligations.FailedCommandChangesOnlyStatus := by
  intro i s h
  by_cases hi : isAead i
  · exact ⟨_, exec_aeadFailed hi h, rfl, rfl, rfl, fun hother => absurd hi hother⟩
  · exact ⟨_, exec_failed hi h, rfl, rfl, rfl, fun _ => rfl⟩

end

section
/-! PROOFS. Reset and the admitted runs (spec/70_reset_and_hazards.md): serving an access leaves the accesses to come as
they are, an admitted access is served, and so an admitted run takes one step per access. -/

namespace Sys2Proof.Machine

open Sys2Proof.Claims

/-! ### The accesses to come -/

/-- The accesses to come are among what no command writes. -/
theorem WritesOnly.pending {i : Instr} {s t : State} (h : WritesOnly i s t) : t.pending = s.pending := by
  rw [h.frame]

/-- Nothing an access does adds to the accesses to come or takes from them (70_reset R252). -/
theorem Served.pending {s t : State} (h : Served s t) : t.pending = s.pending := by
  cases h with
  | command i t hexec =>
    obtain ⟨u, hu, hwrites⟩ := exec_writesOnly i s
    cases hexec.symm.trans hu
    exact hwrites.pending
  | illegal => rfl
  | register r v =>
    obtain ⟨-, -, -, hpending, -⟩ := writeReg_frame r v s
    exact hpending
  | read value => rfl
  | byte a b h => rfl
  | reset => rfl

/-- A step with an access to come uses up that access alone and leaves the parameters (70_reset R252, 10_state R48). -/
theorem step_pending_cfg {s t : State} {access : HostAccess} {rest : List HostAccess}
    (hp : s.pending = access :: rest) (h : step s = .next t) : t.pending = rest ∧ t.cfg = s.cfg := by
  rcases step_served h with ⟨hnil, -⟩ | ⟨access', rest', hcons, hserved⟩
  · cases hp.symm.trans hnil
  · cases hp.symm.trans hcons
    exact ⟨hserved.pending, hserved.cfg_memSeed.1⟩

/-! ### Admitted accesses -/

/-- An admitted access lies inside the interface (20_memory R66 to R70). -/
theorem not_outside_of_wf {memSize : Nat} {access : HostAccess} (h : access.wf memSize = true) :
    ¬outside memSize access := by
  cases access with
  | regWrite off v => simpa [HostAccess.wf, offsetOk, outside] using h
  | regRead off => simpa [HostAccess.wf, offsetOk, outside] using h
  | regOddWidth width off => cases h
  | memWrite a b => simpa [HostAccess.wf, outside] using h
  | memRead a => simpa [HostAccess.wf, outside] using h
  | reset => exact id

/-- With an access to come, the accesses are admitted if that one and the rest are. -/
theorem State.admitted_iff_of_cons {s : State} {access : HostAccess} {rest : List HostAccess}
    (hp : s.pending = access :: rest) :
    s.Admitted ↔ access.wf s.cfg.memSize = true ∧ (s.withPending rest).Admitted := by
  rw [State.Admitted, hp, List.all_cons, Bool.and_eq_true]
  rfl

/-- Whether the accesses to come are admitted depends on them and on the parameters only. -/
theorem State.Admitted.congr {s t : State} (h : s.Admitted) (hp : t.pending = s.pending) (hcfg : t.cfg = s.cfg) :
    t.Admitted := by
  rw [State.Admitted, hp, hcfg]
  exact h

/-- An access to come that is admitted has a next state (20_memory R66 to R69). -/
theorem step_next_of_wf {s : State} {access : HostAccess} {rest : List HostAccess} (hp : s.pending = access :: rest)
    (h : access.wf s.cfg.memSize = true) : ∃ t, step s = .next t := by
  have hs : next s access rest = s := by rw [next, ← hp]
  rw [← hs]
  exact step_next_of_not_outside rest (not_outside_of_wf h)

/-- From an admitted state with an access to come, the step uses up that access and leaves an admitted state
(70_reset R252, 20_memory R72). -/
theorem State.Admitted.step {s : State} {access : HostAccess} {rest : List HostAccess}
    (h : s.Admitted) (hp : s.pending = access :: rest) :
    ∃ t, Machine.step s = .next t ∧ t.pending = rest ∧ t.Admitted := by
  obtain ⟨hwf, hrest⟩ := (State.admitted_iff_of_cons hp).1 h
  obtain ⟨t, ht⟩ := step_next_of_wf hp hwf
  obtain ⟨hpending, hcfg⟩ := step_pending_cfg hp ht
  exact ⟨t, ht, hpending, hrest.congr hpending hcfg⟩

/-! ### Admitted runs -/

/-- A run of one step more is that step and then the rest of the run. -/
theorem run_succ_of_step {M : Host.Core} {s t : M.State} (n : Nat) (h : M.step s = .next t) :
    M.run (n + 1) s = M.run n t := by
  rw [Host.Core.run, h]

/-- An admitted run of as many steps as accesses ends with none left, by induction on the accesses to come. -/
theorem State.Admitted.run {s : State} (h : s.Admitted) :
    ∃ t, Host.Core.run core s.pending.length s = .next t ∧ State.pending t = [] := by
  induction hp : s.pending generalizing s with
  | nil => exact ⟨s, rfl, hp⟩
  | cons access rest ih =>
    obtain ⟨t, hstep, hpending, ht⟩ := h.step hp
    obtain ⟨u, hrun, hdone⟩ := ih ht hpending
    exact ⟨u, (run_succ_of_step (M := core) rest.length hstep).trans hrun, hdone⟩

end Sys2Proof.Machine

open Sys2Proof Sys2Proof.Machine Sys2Proof.Claims

/-- Settles O53: an admitted access is served, and serving it leaves the accesses after it and the parameters. -/
theorem admittedStepUsesOneAccess : Obligations.AdmittedStepUsesOneAccess :=
  fun _ _ _ hp h => h.step hp

/-- Settles O19: each step of an admitted run uses up one access and leaves an admitted state. -/
theorem admittedRunEnds : Obligations.AdmittedRunEnds :=
  fun _ h => h.run

/-- Settles O8: with no access to come the step is idle. -/
theorem idleStepChangesNothing : Obligations.IdleStepChangesNothing :=
  step_idle

/-- Settles O20: the access is a reset, which `State.applyReset` serves, and its registers are those of
`State.reset`. -/
theorem resetSetsEveryRegister : Obligations.ResetSetsEveryRegister :=
  ⟨fun s rest => step_next_done (o := .next (after s rest).applyReset) rfl, rfl⟩

end
